-- ==== Sys2Proof/Word.lean ====
section
/-! DEFINITION. The word, byte and index types of the block and its environment (00_scope.md R6, R7). -/

namespace Sys2Proof

/-- A 32-bit value: an instruction word or a position (`WORD_WIDTH` and `PC_WIDTH`, R6). -/
abbrev Word := BitVec 32

/-- One location of the image (20_memory.md R40). -/
abbrev Byte := BitVec 8

/-- A 4-bit register index, 0 to 15 (`REG_INDEX_WIDTH`, R6). The block holds no register (R26). -/
abbrev RegIdx := BitVec 4

/-- A 4-bit condition field (`COND_WIDTH`, R6); never evaluated (R27). -/
abbrev Cond := BitVec 4

end Sys2Proof
end

