-- ==== Sys2Proof/Syntax.lean ====
section
/-! DEFINITION. The types of the decoded record (40_decode_pipeline.md R101), of the block's ports (10_state.md R22),
and `Instr`: one constructor per row of spec/opcode_table.json. -/

namespace Sys2Proof

/-- The five variants of the classifier (00_scope.md R11, 30_encoding.md R72). -/
inductive Variant where
  | branch
  | branchExchange
  | dataProcessing
  | undefined
  | unclassified
  deriving DecidableEq, Repr

/-- The operation a data-processing record names (R101): the sixteen of R75 and the re-tag of R76. -/
inductive AluOp where
  | and | eor | sub | rsb | add | adc | sbc | rsc | tst | teq
  | statusRegisterTransfer
  | cmp | cmn | orr | mov | bic | mvn
  deriving DecidableEq, Repr

/-- The shift type of a record's register operand (R101, R77). -/
inductive ShiftType where
  | lsl | lsr | asr | ror | rrx
  deriving DecidableEq, Repr

/-- The shift amount of a record's register operand (R101, R80). -/
inductive ShiftAmount where
  | immAmount (shiftImm : BitVec 5)
  | regAmount (rs : RegIdx)
  deriving DecidableEq, Repr

/-- Operand 2 of a data-processing record (R101). -/
inductive Operand2 where
  | imm (rot : BitVec 4) (rotateAmount : BitVec 5) (imm8 : BitVec 8) (value : Word)
  | reg (rm : RegIdx) (shift : ShiftType) (amount : ShiftAmount)
  deriving DecidableEq, Repr

/-- The payload of a decoded record, one constructor per variant (R101). -/
inductive Body where
  | branch (link : Bool) (imm24 : BitVec 24) (byteOffset : Word)
  | branchExchange (rm : RegIdx)
  | dataProcessing (i : Bool) (opcode : BitVec 4) (op : AluOp) (s : Bool) (rn rd : RegIdx) (op2 : Operand2)
  | undefined
  | unclassified
  deriving DecidableEq, Repr

/-- The decoded record (R101). -/
structure Decoded where
  cond : Cond
  body : Body
  deriving DecidableEq, Repr

/-- The block's output ports, with the names and widths of 10_state.md R22. -/
structure Ports where
  variant_o : BitVec 3
  cond_o : BitVec 4
  b_link_o : Bool
  b_imm24_o : BitVec 24
  b_offset_o : Word
  bx_rm_o : RegIdx
  dp_i_o : Bool
  dp_opcode_o : BitVec 4
  dp_psr_xfer_o : Bool
  dp_s_o : Bool
  dp_rn_o : RegIdx
  dp_rd_o : RegIdx
  dp_rot_o : BitVec 4
  dp_rot_amount_o : BitVec 5
  dp_imm8_o : BitVec 8
  dp_imm_value_o : Word
  dp_rm_o : RegIdx
  dp_shift_type_o : BitVec 3
  dp_shift_by_reg_o : Bool
  dp_shift_imm_o : BitVec 5
  dp_rs_o : RegIdx
  pc_change_valid_o : Bool
  new_pc_o : Word
  fault_o : Bool
  deriving DecidableEq, Repr, Inhabited

/-- The sixteen values of the opcode field, bits 24–21 (30_encoding.md R75). -/
inductive AluOpcode where
  | and | eor | sub | rsb | add | adc | sbc | rsc | tst | teq | cmp | cmn | orr | mov | bic | mvn
  deriving DecidableEq, Repr

/-- The four values of the shift-type field, bits 6–5 (30_encoding.md R77). -/
inductive ShiftKind where
  | lsl | lsr | asr | ror
  deriving DecidableEq, Repr

/-- The operand fields of format DP-I, bits 11–8 and 7–0 (30_encoding.md R64). -/
structure ImmOperand where
  rot : BitVec 4
  imm8 : BitVec 8
  deriving DecidableEq, Repr

/-- The operand fields of format DP-RI, bits 11–7, 6–5 and 3–0 (30_encoding.md R65). -/
structure ShiftImmOperand where
  shiftImm : BitVec 5
  kind : ShiftKind
  rm : RegIdx
  deriving DecidableEq, Repr

/-- The operand fields of format DP-RR, bits 11–8, 6–5 and 3–0 (30_encoding.md R66). -/
structure ShiftRegOperand where
  rs : RegIdx
  kind : ShiftKind
  rm : RegIdx
  deriving DecidableEq, Repr

/-- The formats of 30_encoding.md R62 to R67; `none` is the table's format of the fallback row. -/
inductive Format where
  | b | bx | dpI | dpRI | dpRR | und | none
  deriving DecidableEq, Repr

/-- An instruction word as syntax, one constructor per row of spec/opcode_table.json, in the table's order.
The suffixes I, RI and RR name the formats DP-I, DP-RI and DP-RR. UNDEFINED and UNCLASSIFIED carry the bits that the
block does not decode (R67, R201), so that every word is exactly one instruction. -/
inductive Instr where
  -- Branch (41_branch.md R120, R121)
  | b (cond : Cond) (imm24 : BitVec 24)
  | bl (cond : Cond) (imm24 : BitVec 24)
  -- Branch-Exchange (42_branch_exchange.md R140)
  | bx (cond : Cond) (rm : RegIdx)

  -- AND (R160)
  | andI (cond : Cond) (setFlags : Bool) (rn rd : RegIdx) (op2 : ImmOperand)
  | andRI (cond : Cond) (setFlags : Bool) (rn rd : RegIdx) (op2 : ShiftImmOperand)
  | andRR (cond : Cond) (setFlags : Bool) (rn rd : RegIdx) (op2 : ShiftRegOperand)

  -- EOR (R161)
  | eorI (cond : Cond) (setFlags : Bool) (rn rd : RegIdx) (op2 : ImmOperand)
  | eorRI (cond : Cond) (setFlags : Bool) (rn rd : RegIdx) (op2 : ShiftImmOperand)
  | eorRR (cond : Cond) (setFlags : Bool) (rn rd : RegIdx) (op2 : ShiftRegOperand)

  -- SUB (R162)
  | subI (cond : Cond) (setFlags : Bool) (rn rd : RegIdx) (op2 : ImmOperand)
  | subRI (cond : Cond) (setFlags : Bool) (rn rd : RegIdx) (op2 : ShiftImmOperand)
  | subRR (cond : Cond) (setFlags : Bool) (rn rd : RegIdx) (op2 : ShiftRegOperand)

  -- RSB (R163)
  | rsbI (cond : Cond) (setFlags : Bool) (rn rd : RegIdx) (op2 : ImmOperand)
  | rsbRI (cond : Cond) (setFlags : Bool) (rn rd : RegIdx) (op2 : ShiftImmOperand)
  | rsbRR (cond : Cond) (setFlags : Bool) (rn rd : RegIdx) (op2 : ShiftRegOperand)

  -- ADD (R164)
  | addI (cond : Cond) (setFlags : Bool) (rn rd : RegIdx) (op2 : ImmOperand)
  | addRI (cond : Cond) (setFlags : Bool) (rn rd : RegIdx) (op2 : ShiftImmOperand)
  | addRR (cond : Cond) (setFlags : Bool) (rn rd : RegIdx) (op2 : ShiftRegOperand)

  -- ADC (R165)
  | adcI (cond : Cond) (setFlags : Bool) (rn rd : RegIdx) (op2 : ImmOperand)
  | adcRI (cond : Cond) (setFlags : Bool) (rn rd : RegIdx) (op2 : ShiftImmOperand)
  | adcRR (cond : Cond) (setFlags : Bool) (rn rd : RegIdx) (op2 : ShiftRegOperand)

  -- SBC (R166)
  | sbcI (cond : Cond) (setFlags : Bool) (rn rd : RegIdx) (op2 : ImmOperand)
  | sbcRI (cond : Cond) (setFlags : Bool) (rn rd : RegIdx) (op2 : ShiftImmOperand)
  | sbcRR (cond : Cond) (setFlags : Bool) (rn rd : RegIdx) (op2 : ShiftRegOperand)

  -- RSC (R167)
  | rscI (cond : Cond) (setFlags : Bool) (rn rd : RegIdx) (op2 : ImmOperand)
  | rscRI (cond : Cond) (setFlags : Bool) (rn rd : RegIdx) (op2 : ShiftImmOperand)
  | rscRR (cond : Cond) (setFlags : Bool) (rn rd : RegIdx) (op2 : ShiftRegOperand)

  -- TST (R168)
  | tstI (cond : Cond) (setFlags : Bool) (rn rd : RegIdx) (op2 : ImmOperand)
  | tstRI (cond : Cond) (setFlags : Bool) (rn rd : RegIdx) (op2 : ShiftImmOperand)
  | tstRR (cond : Cond) (setFlags : Bool) (rn rd : RegIdx) (op2 : ShiftRegOperand)

  -- TEQ (R169)
  | teqI (cond : Cond) (rn rd : RegIdx) (op2 : ImmOperand)
  | teqRI (cond : Cond) (rn rd : RegIdx) (op2 : ShiftImmOperand)
  | teqRR (cond : Cond) (rn rd : RegIdx) (op2 : ShiftRegOperand)

  -- PSRX (R170)
  | psrxI (cond : Cond) (rn rd : RegIdx) (op2 : ImmOperand)
  | psrxRI (cond : Cond) (rn rd : RegIdx) (op2 : ShiftImmOperand)
  | psrxRR (cond : Cond) (rn rd : RegIdx) (op2 : ShiftRegOperand)

  -- CMP (R171)
  | cmpI (cond : Cond) (setFlags : Bool) (rn rd : RegIdx) (op2 : ImmOperand)
  | cmpRI (cond : Cond) (setFlags : Bool) (rn rd : RegIdx) (op2 : ShiftImmOperand)
  | cmpRR (cond : Cond) (setFlags : Bool) (rn rd : RegIdx) (op2 : ShiftRegOperand)

  -- CMN (R172)
  | cmnI (cond : Cond) (setFlags : Bool) (rn rd : RegIdx) (op2 : ImmOperand)
  | cmnRI (cond : Cond) (setFlags : Bool) (rn rd : RegIdx) (op2 : ShiftImmOperand)
  | cmnRR (cond : Cond) (setFlags : Bool) (rn rd : RegIdx) (op2 : ShiftRegOperand)

  -- ORR (R173)
  | orrI (cond : Cond) (setFlags : Bool) (rn rd : RegIdx) (op2 : ImmOperand)
  | orrRI (cond : Cond) (setFlags : Bool) (rn rd : RegIdx) (op2 : ShiftImmOperand)
  | orrRR (cond : Cond) (setFlags : Bool) (rn rd : RegIdx) (op2 : ShiftRegOperand)

  -- MOV (R174)
  | movI (cond : Cond) (setFlags : Bool) (rn rd : RegIdx) (op2 : ImmOperand)
  | movRI (cond : Cond) (setFlags : Bool) (rn rd : RegIdx) (op2 : ShiftImmOperand)
  | movRR (cond : Cond) (setFlags : Bool) (rn rd : RegIdx) (op2 : ShiftRegOperand)

  -- BIC (R175)
  | bicI (cond : Cond) (setFlags : Bool) (rn rd : RegIdx) (op2 : ImmOperand)
  | bicRI (cond : Cond) (setFlags : Bool) (rn rd : RegIdx) (op2 : ShiftImmOperand)
  | bicRR (cond : Cond) (setFlags : Bool) (rn rd : RegIdx) (op2 : ShiftRegOperand)

  -- MVN (R176)
  | mvnI (cond : Cond) (setFlags : Bool) (rn rd : RegIdx) (op2 : ImmOperand)
  | mvnRI (cond : Cond) (setFlags : Bool) (rn rd : RegIdx) (op2 : ShiftImmOperand)
  | mvnRR (cond : Cond) (setFlags : Bool) (rn rd : RegIdx) (op2 : ShiftRegOperand)

  -- UNDEFINED (R200): bits 24–5 and 3–0 are free
  | undefined (cond : Cond) (hi : BitVec 20) (lo : BitVec 4)
  -- UNCLASSIFIED (R201): the whole word
  | unclassified (word : Word)
  deriving DecidableEq, Repr

end Sys2Proof
end

