-- ==== Sys2Proof/Config.lean ====
section
/-! DEFINITION. The fixed parameters of 00_scope.md R6, the values the model chose for the OPEN ones at reset, and the
one free value. -/

namespace Sys2Proof.Config

/-- `BRANCH_BIAS` = 12: 4 for the post-increment and 8 for the read-ahead (R6, R122; conflict C6). -/
def branchBias : Word := 12#32

/-- `INSTR_ALIGN` = 4 bytes, also the length of every instruction (R6, R43, R60). -/
def instrAlign : Nat := 4

/-- DESIGN CHOICE (log entry 1): the position at `State.reset`; `INITIAL_PC` is OPEN (R6, R32). -/
def resetPc : Word := 0#32

/-- DESIGN CHOICE (log entry 3): what an offset of the image that the list does not hold reads as. -/
def unlistedByte : Byte := 0#8

/-- Free value (log entry 6): what the ports of R22 carry where their "valid when" is false, as a function of the two
inputs `word_i` and `current_pc_i` (R10, R25). Nothing can be proved of it. -/
opaque inactivePorts : Word → Word → Ports

end Sys2Proof.Config
end

