-- ==== Sys2Proof/WellFormed.lean ====
section
/-! DEFINITION. Which instructions some word stands for: the two overlaps of the formats that 30_encoding.md R82 settles. -/

namespace Sys2Proof

/-- The word lies in a space that R81 and R82 leave to Unclassified, told by its class bits 27–25 and bits 7 and 4. -/
def inUnclassifiedSpace (w : Word) : Bool :=
  let c := w.extractLsb' 25 3
  (c == 0b000#3 && w.getLsbD 7 && w.getLsbD 4) || c == 0b010#3 || (c == 0b011#3 && !w.getLsbD 4)
    || c == 0b100#3 || c == 0b110#3 || c == 0b111#3

/-- The fields of a PSRX word in format DP-RR spell the BX pattern of R63, and the word is a BX (R82, R170). -/
def spellsBX (rn rd : RegIdx) (op2 : ShiftRegOperand) : Bool :=
  rn == 0b1111#4 && rd == 0b1111#4 && op2.rs == 0b1111#4 && op2.kind == .lsl

/-- Some word decodes to the instruction: a PSRX is not spelled as a BX, and an UNCLASSIFIED word is one that R82 gives
to no other variant. Every other field admits every value (R26, R81). -/
def Instr.wf : Instr → Bool
  | .psrxRR _ rn rd op2 => !spellsBX rn rd op2
  | .unclassified w => inUnclassifiedSpace w
  | .b .. | .bl .. | .bx .. | .undefined .. => true
  | .andI .. | .eorI .. | .subI .. | .rsbI .. | .addI .. | .adcI .. | .sbcI .. | .rscI .. | .tstI .. | .teqI .. | .psrxI .. | .cmpI .. | .cmnI .. | .orrI .. | .movI .. | .bicI .. | .mvnI .. => true
  | .andRI .. | .eorRI .. | .subRI .. | .rsbRI .. | .addRI .. | .adcRI .. | .sbcRI .. | .rscRI .. | .tstRI .. | .teqRI .. | .psrxRI .. | .cmpRI .. | .cmnRI .. | .orrRI .. | .movRI .. | .bicRI .. | .mvnRI .. => true
  | .andRR .. | .eorRR .. | .subRR .. | .rsbRR .. | .addRR .. | .adcRR .. | .sbcRR .. | .rscRR .. | .tstRR .. | .teqRR .. | .cmpRR .. | .cmnRR .. | .orrRR .. | .movRR .. | .bicRR .. | .mvnRR .. => true

end Sys2Proof
end

