-- ==== Sys2Proof/Decode.lean ====
section
/-! DEFINITION. Bit fields, the classifier (30_encoding.md R68 to R73), the decoder from words and bytes to `Instr`, the
encoder, and the opcode table with its first-match reading. -/

namespace Sys2Proof

/-! Bit fields of a word (formats R62 to R67). -/

/-- Bits 31–28 (R61, R102). -/
def condOf (w : Word) : Cond := w.extractLsb' 28 4
/-- Bits 27–25 (R61). -/
def classOf (w : Word) : BitVec 3 := w.extractLsb' 25 3
/-- Bit 24, the link flag (R62). -/
def linkBit (w : Word) : Bool := w.getLsbD 24
/-- Bits 23–0 (R62). -/
def imm24Of (w : Word) : BitVec 24 := w.extractLsb' 0 24
/-- Bit 25, the immediate flag (R64). -/
def iBit (w : Word) : Bool := w.getLsbD 25
/-- Bits 24–21 (R64). -/
def opcodeOf (w : Word) : BitVec 4 := w.extractLsb' 21 4
/-- Bit 20, set-flags (R64). -/
def sBit (w : Word) : Bool := w.getLsbD 20
/-- Bits 19–16 (R64). -/
def rnOf (w : Word) : RegIdx := w.extractLsb' 16 4
/-- Bits 15–12 (R64). -/
def rdOf (w : Word) : RegIdx := w.extractLsb' 12 4
/-- Bits 11–8 of the immediate form (R64). -/
def rotOf (w : Word) : BitVec 4 := w.extractLsb' 8 4
/-- Bits 7–0 (R64). -/
def imm8Of (w : Word) : BitVec 8 := w.extractLsb' 0 8
/-- Bits 11–7 (R65). -/
def shiftImmOf (w : Word) : BitVec 5 := w.extractLsb' 7 5
/-- Bits 11–8 of the register form (R66). -/
def rsOf (w : Word) : RegIdx := w.extractLsb' 8 4
/-- Bits 6–5 (R65, R66). -/
def typeOf (w : Word) : BitVec 2 := w.extractLsb' 5 2
/-- Bit 4, the shift-by-register flag (R65, R66). -/
def byRegBit (w : Word) : Bool := w.getLsbD 4
/-- Bits 3–0 (R63, R65, R66; conflict C2 for BX). -/
def rmOf (w : Word) : RegIdx := w.extractLsb' 0 4

/-! The classifier. -/

/-- R68. -/
def isBranch (w : Word) : Bool := classOf w == 0b101#3

/-- R69: bits 27–4 are the fixed pattern. -/
def isBX (w : Word) : Bool := w.extractLsb' 4 24 == 0b000100101111111111110001#24

/-- The four nibbles of bits 7–4 that R70 rejects. -/
def reservedNibble (n : BitVec 4) : Bool :=
  n == 0b1001#4 || n == 0b1011#4 || n == 0b1101#4 || n == 0b1111#4

/-- R70. -/
def isDP (w : Word) : Bool :=
  classOf w == 0b001#3 || (classOf w == 0b000#3 && !isBX w && !reservedNibble (w.extractLsb' 4 4))

/-- R71. -/
def isUndef (w : Word) : Bool := classOf w == 0b011#3 && w.getLsbD 4

/-- R72: the first predicate in the fixed order decides. -/
def classify (w : Word) : Variant :=
  if isBranch w then .branch
  else if isBX w then .branchExchange
  else if isDP w then .dataProcessing
  else if isUndef w then .undefined
  else .unclassified

/-- The four predicates with their variants, in the priority order of R72. -/
def variantPredicates : List ((Word → Bool) × Variant) :=
  [(isBranch, .branch), (isBX, .branchExchange), (isDP, .dataProcessing), (isUndef, .undefined)]

/-- The first predicate of the list that holds decides; Unclassified where none does. -/
def firstMatch : List ((Word → Bool) × Variant) → Word → Variant
  | [], _ => .unclassified
  | (p, v) :: rest, w => if p w then v else firstMatch rest w

/-- The source program's loop, as R73 reports it: every predicate is tried and the last that holds decides. -/
def lastMatch (ps : List ((Word → Bool) × Variant)) (w : Word) : Variant :=
  ps.foldl (fun v p => if p.1 w then p.2 else v) .unclassified

/-! Codes of the small fields. -/

/-- R75: the operation the opcode field names. -/
def aluOpcodeOf (b : BitVec 4) : AluOpcode :=
  match b.toNat with
  | 0 => .and | 1 => .eor | 2 => .sub | 3 => .rsb
  | 4 => .add | 5 => .adc | 6 => .sbc | 7 => .rsc
  | 8 => .tst | 9 => .teq | 10 => .cmp | 11 => .cmn
  | 12 => .orr | 13 => .mov | 14 => .bic | _ => .mvn

/-- R77: the four values of bits 6–5. -/
def shiftKindOf (t : BitVec 2) : ShiftKind :=
  match t.toNat with
  | 0 => .lsl | 1 => .lsr | 2 => .asr | _ => .ror

/-- R77: the bits 6–5 of a shift kind. -/
def shiftKindBits : ShiftKind → BitVec 2
  | .lsl => 0b00#2 | .lsr => 0b01#2 | .asr => 0b10#2 | .ror => 0b11#2

/-! The decoder. -/

/-- The operand fields of a DP-I word (R64). -/
def immFields (w : Word) : ImmOperand := ⟨rotOf w, imm8Of w⟩
/-- The operand fields of a DP-RI word (R65). -/
def shiftImmFields (w : Word) : ShiftImmOperand := ⟨shiftImmOf w, shiftKindOf (typeOf w), rmOf w⟩
/-- The operand fields of a DP-RR word (R66). -/
def shiftRegFields (w : Word) : ShiftRegOperand := ⟨rsOf w, shiftKindOf (typeOf w), rmOf w⟩

/-- A DP-I word, by its opcode (R75, R76). -/
def decodeI (w : Word) : Instr :=
  let op2 := immFields w
  match aluOpcodeOf (opcodeOf w) with
  | .and => .andI (condOf w) (sBit w) (rnOf w) (rdOf w) op2
  | .eor => .eorI (condOf w) (sBit w) (rnOf w) (rdOf w) op2
  | .sub => .subI (condOf w) (sBit w) (rnOf w) (rdOf w) op2
  | .rsb => .rsbI (condOf w) (sBit w) (rnOf w) (rdOf w) op2
  | .add => .addI (condOf w) (sBit w) (rnOf w) (rdOf w) op2
  | .adc => .adcI (condOf w) (sBit w) (rnOf w) (rdOf w) op2
  | .sbc => .sbcI (condOf w) (sBit w) (rnOf w) (rdOf w) op2
  | .rsc => .rscI (condOf w) (sBit w) (rnOf w) (rdOf w) op2
  | .tst => .tstI (condOf w) (sBit w) (rnOf w) (rdOf w) op2
  | .teq => if sBit w then .teqI (condOf w) (rnOf w) (rdOf w) op2 else .psrxI (condOf w) (rnOf w) (rdOf w) op2
  | .cmp => .cmpI (condOf w) (sBit w) (rnOf w) (rdOf w) op2
  | .cmn => .cmnI (condOf w) (sBit w) (rnOf w) (rdOf w) op2
  | .orr => .orrI (condOf w) (sBit w) (rnOf w) (rdOf w) op2
  | .mov => .movI (condOf w) (sBit w) (rnOf w) (rdOf w) op2
  | .bic => .bicI (condOf w) (sBit w) (rnOf w) (rdOf w) op2
  | .mvn => .mvnI (condOf w) (sBit w) (rnOf w) (rdOf w) op2

/-- A DP-RI word, by its opcode (R75, R76). -/
def decodeRI (w : Word) : Instr :=
  let op2 := shiftImmFields w
  match aluOpcodeOf (opcodeOf w) with
  | .and => .andRI (condOf w) (sBit w) (rnOf w) (rdOf w) op2
  | .eor => .eorRI (condOf w) (sBit w) (rnOf w) (rdOf w) op2
  | .sub => .subRI (condOf w) (sBit w) (rnOf w) (rdOf w) op2
  | .rsb => .rsbRI (condOf w) (sBit w) (rnOf w) (rdOf w) op2
  | .add => .addRI (condOf w) (sBit w) (rnOf w) (rdOf w) op2
  | .adc => .adcRI (condOf w) (sBit w) (rnOf w) (rdOf w) op2
  | .sbc => .sbcRI (condOf w) (sBit w) (rnOf w) (rdOf w) op2
  | .rsc => .rscRI (condOf w) (sBit w) (rnOf w) (rdOf w) op2
  | .tst => .tstRI (condOf w) (sBit w) (rnOf w) (rdOf w) op2
  | .teq => if sBit w then .teqRI (condOf w) (rnOf w) (rdOf w) op2 else .psrxRI (condOf w) (rnOf w) (rdOf w) op2
  | .cmp => .cmpRI (condOf w) (sBit w) (rnOf w) (rdOf w) op2
  | .cmn => .cmnRI (condOf w) (sBit w) (rnOf w) (rdOf w) op2
  | .orr => .orrRI (condOf w) (sBit w) (rnOf w) (rdOf w) op2
  | .mov => .movRI (condOf w) (sBit w) (rnOf w) (rdOf w) op2
  | .bic => .bicRI (condOf w) (sBit w) (rnOf w) (rdOf w) op2
  | .mvn => .mvnRI (condOf w) (sBit w) (rnOf w) (rdOf w) op2

/-- A DP-RR word, by its opcode (R75, R76). -/
def decodeRR (w : Word) : Instr :=
  let op2 := shiftRegFields w
  match aluOpcodeOf (opcodeOf w) with
  | .and => .andRR (condOf w) (sBit w) (rnOf w) (rdOf w) op2
  | .eor => .eorRR (condOf w) (sBit w) (rnOf w) (rdOf w) op2
  | .sub => .subRR (condOf w) (sBit w) (rnOf w) (rdOf w) op2
  | .rsb => .rsbRR (condOf w) (sBit w) (rnOf w) (rdOf w) op2
  | .add => .addRR (condOf w) (sBit w) (rnOf w) (rdOf w) op2
  | .adc => .adcRR (condOf w) (sBit w) (rnOf w) (rdOf w) op2
  | .sbc => .sbcRR (condOf w) (sBit w) (rnOf w) (rdOf w) op2
  | .rsc => .rscRR (condOf w) (sBit w) (rnOf w) (rdOf w) op2
  | .tst => .tstRR (condOf w) (sBit w) (rnOf w) (rdOf w) op2
  | .teq => if sBit w then .teqRR (condOf w) (rnOf w) (rdOf w) op2 else .psrxRR (condOf w) (rnOf w) (rdOf w) op2
  | .cmp => .cmpRR (condOf w) (sBit w) (rnOf w) (rdOf w) op2
  | .cmn => .cmnRR (condOf w) (sBit w) (rnOf w) (rdOf w) op2
  | .orr => .orrRR (condOf w) (sBit w) (rnOf w) (rdOf w) op2
  | .mov => .movRR (condOf w) (sBit w) (rnOf w) (rdOf w) op2
  | .bic => .bicRR (condOf w) (sBit w) (rnOf w) (rdOf w) op2
  | .mvn => .mvnRR (condOf w) (sBit w) (rnOf w) (rdOf w) op2

/-- A data-processing word, by its form (R150). -/
def decodeDP (w : Word) : Instr :=
  if iBit w then decodeI w else if byRegBit w then decodeRR w else decodeRI w

/-- The instruction a word is. Total: every word has exactly one (R72, R103). -/
def decodeWord (w : Word) : Instr :=
  match classify w with
  | .branch => if linkBit w then .bl (condOf w) (imm24Of w) else .b (condOf w) (imm24Of w)
  | .branchExchange => .bx (condOf w) (rmOf w)
  | .dataProcessing => decodeDP w
  | .undefined => .undefined (condOf w) (w.extractLsb' 5 20) (w.extractLsb' 0 4)
  | .unclassified => .unclassified w

/-- Little-endian assembly of four bytes, the lowest offset first (20_memory.md R41). -/
def assembleWord (b0 b1 b2 b3 : Byte) : Word :=
  b0.setWidth 32 ||| (b1.setWidth 32 <<< 8) ||| (b2.setWidth 32 <<< 16) ||| (b3.setWidth 32 <<< 24)

/-- The four bytes of a word as the image holds them, the lowest offset first (R41). -/
def wordBytes (w : Word) : List Byte :=
  [w.extractLsb' 0 8, w.extractLsb' 8 8, w.extractLsb' 16 8, w.extractLsb' 24 8]

/-- Why bytes are no instruction: `tooShort`, fewer than the four bytes of a word (R42, R60: no partial word is formed). -/
inductive DecodeError where
  | tooShort
  deriving DecidableEq, Repr

/-- The instruction at the head of a byte list, with the bytes after it. -/
def decodeBytes : List Byte → Except DecodeError (Instr × List Byte)
  | b0 :: b1 :: b2 :: b3 :: rest => .ok (decodeWord (assembleWord b0 b1 b2 b3), rest)
  | _ => .error .tooShort

/-- The word that the opcode table's numbering `w` of `nbits` bits stands for; bits above `nbits` are 0. -/
def tableWord (nbits w : Nat) : Word := BitVec.ofNat 32 (w % 2 ^ nbits)

/-- The decoder on a word numbered as spec/opcode_table.json numbers it. No instruction is longer than 32 bits (R60). -/
def decodeTableWord (nbits w : Nat) : Option Instr :=
  if 32 < nbits then none
  else match decodeBytes (wordBytes (tableWord nbits w)) with
    | .ok (i, _) => some i
    | .error _ => none

/-! The encoder. -/

/-- Format B (R62). -/
def encodeB (cond : Cond) (link : Bool) (imm24 : BitVec 24) : Word :=
  cond ++ 0b101#3 ++ BitVec.ofBool link ++ imm24

/-- Format BX (R63). -/
def encodeBX (cond : Cond) (rm : RegIdx) : Word :=
  cond ++ 0b000100101111111111110001#24 ++ rm

/-- Format DP-I (R64). -/
def encodeI (cond : Cond) (opcode : BitVec 4) (s : Bool) (rn rd : RegIdx) (o : ImmOperand) : Word :=
  cond ++ 0b001#3 ++ opcode ++ BitVec.ofBool s ++ rn ++ rd ++ o.rot ++ o.imm8

/-- Format DP-RI (R65). -/
def encodeRI (cond : Cond) (opcode : BitVec 4) (s : Bool) (rn rd : RegIdx) (o : ShiftImmOperand) : Word :=
  cond ++ 0b000#3 ++ opcode ++ BitVec.ofBool s ++ rn ++ rd ++ o.shiftImm ++ shiftKindBits o.kind ++ 0b0#1 ++ o.rm

/-- Format DP-RR (R66). -/
def encodeRR (cond : Cond) (opcode : BitVec 4) (s : Bool) (rn rd : RegIdx) (o : ShiftRegOperand) : Word :=
  cond ++ 0b000#3 ++ opcode ++ BitVec.ofBool s ++ rn ++ rd ++ o.rs ++ 0b0#1 ++ shiftKindBits o.kind ++ 0b1#1 ++ o.rm

/-- Format UND (R67). -/
def encodeUnd (cond : Cond) (hi : BitVec 20) (lo : BitVec 4) : Word :=
  cond ++ 0b011#3 ++ hi ++ 0b1#1 ++ lo

/-- The word of an instruction. -/
def encode : Instr → Word
  | .b cond imm24 => encodeB cond false imm24
  | .bl cond imm24 => encodeB cond true imm24
  | .bx cond rm => encodeBX cond rm
  | .andI cond s rn rd op2 => encodeI cond 0b0000#4 s rn rd op2
  | .andRI cond s rn rd op2 => encodeRI cond 0b0000#4 s rn rd op2
  | .andRR cond s rn rd op2 => encodeRR cond 0b0000#4 s rn rd op2
  | .eorI cond s rn rd op2 => encodeI cond 0b0001#4 s rn rd op2
  | .eorRI cond s rn rd op2 => encodeRI cond 0b0001#4 s rn rd op2
  | .eorRR cond s rn rd op2 => encodeRR cond 0b0001#4 s rn rd op2
  | .subI cond s rn rd op2 => encodeI cond 0b0010#4 s rn rd op2
  | .subRI cond s rn rd op2 => encodeRI cond 0b0010#4 s rn rd op2
  | .subRR cond s rn rd op2 => encodeRR cond 0b0010#4 s rn rd op2
  | .rsbI cond s rn rd op2 => encodeI cond 0b0011#4 s rn rd op2
  | .rsbRI cond s rn rd op2 => encodeRI cond 0b0011#4 s rn rd op2
  | .rsbRR cond s rn rd op2 => encodeRR cond 0b0011#4 s rn rd op2
  | .addI cond s rn rd op2 => encodeI cond 0b0100#4 s rn rd op2
  | .addRI cond s rn rd op2 => encodeRI cond 0b0100#4 s rn rd op2
  | .addRR cond s rn rd op2 => encodeRR cond 0b0100#4 s rn rd op2
  | .adcI cond s rn rd op2 => encodeI cond 0b0101#4 s rn rd op2
  | .adcRI cond s rn rd op2 => encodeRI cond 0b0101#4 s rn rd op2
  | .adcRR cond s rn rd op2 => encodeRR cond 0b0101#4 s rn rd op2
  | .sbcI cond s rn rd op2 => encodeI cond 0b0110#4 s rn rd op2
  | .sbcRI cond s rn rd op2 => encodeRI cond 0b0110#4 s rn rd op2
  | .sbcRR cond s rn rd op2 => encodeRR cond 0b0110#4 s rn rd op2
  | .rscI cond s rn rd op2 => encodeI cond 0b0111#4 s rn rd op2
  | .rscRI cond s rn rd op2 => encodeRI cond 0b0111#4 s rn rd op2
  | .rscRR cond s rn rd op2 => encodeRR cond 0b0111#4 s rn rd op2
  | .tstI cond s rn rd op2 => encodeI cond 0b1000#4 s rn rd op2
  | .tstRI cond s rn rd op2 => encodeRI cond 0b1000#4 s rn rd op2
  | .tstRR cond s rn rd op2 => encodeRR cond 0b1000#4 s rn rd op2
  | .teqI cond rn rd op2 => encodeI cond 0b1001#4 true rn rd op2
  | .teqRI cond rn rd op2 => encodeRI cond 0b1001#4 true rn rd op2
  | .teqRR cond rn rd op2 => encodeRR cond 0b1001#4 true rn rd op2
  | .psrxI cond rn rd op2 => encodeI cond 0b1001#4 false rn rd op2
  | .psrxRI cond rn rd op2 => encodeRI cond 0b1001#4 false rn rd op2
  | .psrxRR cond rn rd op2 => encodeRR cond 0b1001#4 false rn rd op2
  | .cmpI cond s rn rd op2 => encodeI cond 0b1010#4 s rn rd op2
  | .cmpRI cond s rn rd op2 => encodeRI cond 0b1010#4 s rn rd op2
  | .cmpRR cond s rn rd op2 => encodeRR cond 0b1010#4 s rn rd op2
  | .cmnI cond s rn rd op2 => encodeI cond 0b1011#4 s rn rd op2
  | .cmnRI cond s rn rd op2 => encodeRI cond 0b1011#4 s rn rd op2
  | .cmnRR cond s rn rd op2 => encodeRR cond 0b1011#4 s rn rd op2
  | .orrI cond s rn rd op2 => encodeI cond 0b1100#4 s rn rd op2
  | .orrRI cond s rn rd op2 => encodeRI cond 0b1100#4 s rn rd op2
  | .orrRR cond s rn rd op2 => encodeRR cond 0b1100#4 s rn rd op2
  | .movI cond s rn rd op2 => encodeI cond 0b1101#4 s rn rd op2
  | .movRI cond s rn rd op2 => encodeRI cond 0b1101#4 s rn rd op2
  | .movRR cond s rn rd op2 => encodeRR cond 0b1101#4 s rn rd op2
  | .bicI cond s rn rd op2 => encodeI cond 0b1110#4 s rn rd op2
  | .bicRI cond s rn rd op2 => encodeRI cond 0b1110#4 s rn rd op2
  | .bicRR cond s rn rd op2 => encodeRR cond 0b1110#4 s rn rd op2
  | .mvnI cond s rn rd op2 => encodeI cond 0b1111#4 s rn rd op2
  | .mvnRI cond s rn rd op2 => encodeRI cond 0b1111#4 s rn rd op2
  | .mvnRR cond s rn rd op2 => encodeRR cond 0b1111#4 s rn rd op2
  | .undefined cond hi lo => encodeUnd cond hi lo
  | .unclassified w => w

/-- The condition field an instruction's word carries (R61). -/
def instrCond : Instr → Cond
  | .b cond _ | .bl cond _ => cond
  | .bx cond _ => cond
  | .andI cond _ _ _ _ | .andRI cond _ _ _ _ | .andRR cond _ _ _ _ => cond
  | .eorI cond _ _ _ _ | .eorRI cond _ _ _ _ | .eorRR cond _ _ _ _ => cond
  | .subI cond _ _ _ _ | .subRI cond _ _ _ _ | .subRR cond _ _ _ _ => cond
  | .rsbI cond _ _ _ _ | .rsbRI cond _ _ _ _ | .rsbRR cond _ _ _ _ => cond
  | .addI cond _ _ _ _ | .addRI cond _ _ _ _ | .addRR cond _ _ _ _ => cond
  | .adcI cond _ _ _ _ | .adcRI cond _ _ _ _ | .adcRR cond _ _ _ _ => cond
  | .sbcI cond _ _ _ _ | .sbcRI cond _ _ _ _ | .sbcRR cond _ _ _ _ => cond
  | .rscI cond _ _ _ _ | .rscRI cond _ _ _ _ | .rscRR cond _ _ _ _ => cond
  | .tstI cond _ _ _ _ | .tstRI cond _ _ _ _ | .tstRR cond _ _ _ _ => cond
  | .teqI cond _ _ _ | .teqRI cond _ _ _ | .teqRR cond _ _ _ => cond
  | .psrxI cond _ _ _ | .psrxRI cond _ _ _ | .psrxRR cond _ _ _ => cond
  | .cmpI cond _ _ _ _ | .cmpRI cond _ _ _ _ | .cmpRR cond _ _ _ _ => cond
  | .cmnI cond _ _ _ _ | .cmnRI cond _ _ _ _ | .cmnRR cond _ _ _ _ => cond
  | .orrI cond _ _ _ _ | .orrRI cond _ _ _ _ | .orrRR cond _ _ _ _ => cond
  | .movI cond _ _ _ _ | .movRI cond _ _ _ _ | .movRR cond _ _ _ _ => cond
  | .bicI cond _ _ _ _ | .bicRI cond _ _ _ _ | .bicRR cond _ _ _ _ => cond
  | .mvnI cond _ _ _ _ | .mvnRI cond _ _ _ _ | .mvnRR cond _ _ _ _ => cond
  | .undefined cond _ _ => cond
  | .unclassified w => condOf w

/-- The re-encoder of 41_branch.md R123; bit 25 is the constant 1 (92 D20). -/
def encodeBranch (link : Bool) (byteOffset : Word) : Word :=
  (1#32 <<< 25) ||| ((BitVec.ofBool link).setWidth 32 <<< 24) ||| ((byteOffset >>> 2) &&& 0x00FFFFFF#32)

/-! The opcode table, in its own order, and its first-match reading (30_encoding.md, opening). -/

/-- The table's name of an instruction's row. -/
def mnemonicOf : Instr → String
  | .b .. => "B"
  | .bl .. => "BL"
  | .bx .. => "BX"
  | .andI .. | .andRI .. | .andRR .. => "AND"
  | .eorI .. | .eorRI .. | .eorRR .. => "EOR"
  | .subI .. | .subRI .. | .subRR .. => "SUB"
  | .rsbI .. | .rsbRI .. | .rsbRR .. => "RSB"
  | .addI .. | .addRI .. | .addRR .. => "ADD"
  | .adcI .. | .adcRI .. | .adcRR .. => "ADC"
  | .sbcI .. | .sbcRI .. | .sbcRR .. => "SBC"
  | .rscI .. | .rscRI .. | .rscRR .. => "RSC"
  | .tstI .. | .tstRI .. | .tstRR .. => "TST"
  | .teqI .. | .teqRI .. | .teqRR .. => "TEQ"
  | .psrxI .. | .psrxRI .. | .psrxRR .. => "PSRX"
  | .cmpI .. | .cmpRI .. | .cmpRR .. => "CMP"
  | .cmnI .. | .cmnRI .. | .cmnRR .. => "CMN"
  | .orrI .. | .orrRI .. | .orrRR .. => "ORR"
  | .movI .. | .movRI .. | .movRR .. => "MOV"
  | .bicI .. | .bicRI .. | .bicRR .. => "BIC"
  | .mvnI .. | .mvnRI .. | .mvnRR .. => "MVN"
  | .undefined .. => "UNDEFINED"
  | .unclassified _ => "UNCLASSIFIED"

/-- The format of an instruction's row. -/
def formatOf : Instr → Format
  | .b .. | .bl .. => .b
  | .bx .. => .bx
  | .andI .. | .eorI .. | .subI .. | .rsbI .. | .addI .. | .adcI .. | .sbcI .. | .rscI .. | .tstI .. | .teqI .. | .psrxI .. | .cmpI .. | .cmnI .. | .orrI .. | .movI .. | .bicI .. | .mvnI .. => .dpI
  | .andRI .. | .eorRI .. | .subRI .. | .rsbRI .. | .addRI .. | .adcRI .. | .sbcRI .. | .rscRI .. | .tstRI .. | .teqRI .. | .psrxRI .. | .cmpRI .. | .cmnRI .. | .orrRI .. | .movRI .. | .bicRI .. | .mvnRI .. => .dpRI
  | .andRR .. | .eorRR .. | .subRR .. | .rsbRR .. | .addRR .. | .adcRR .. | .sbcRR .. | .rscRR .. | .tstRR .. | .teqRR .. | .psrxRR .. | .cmpRR .. | .cmnRR .. | .orrRR .. | .movRR .. | .bicRR .. | .mvnRR .. => .dpRR
  | .undefined .. => .und
  | .unclassified _ => .none

/-- A row of spec/opcode_table.json: the word belongs to it where `word AND mask = value`. -/
structure TableRow where
  mnemonic : String
  format : Format
  mask : Word
  value : Word
  deriving DecidableEq, Repr

/-- Rows 1 to 3. -/
def branchRows : List TableRow :=
  [ ⟨"B", .b, 0x0F000000#32, 0x0A000000#32⟩
  , ⟨"BL", .b, 0x0F000000#32, 0x0B000000#32⟩
  , ⟨"BX", .bx, 0x0FFFFFF0#32, 0x012FFF10#32⟩ ]

/-- The rows of opcodes 0000 to 0111. -/
def aluRowsLow : List TableRow :=
  [ ⟨"AND", .dpI, 0x0FE00000#32, 0x02000000#32⟩
  , ⟨"AND", .dpRI, 0x0FE00010#32, 0x00000000#32⟩
  , ⟨"AND", .dpRR, 0x0FE00090#32, 0x00000010#32⟩
  , ⟨"EOR", .dpI, 0x0FE00000#32, 0x02200000#32⟩
  , ⟨"EOR", .dpRI, 0x0FE00010#32, 0x00200000#32⟩
  , ⟨"EOR", .dpRR, 0x0FE00090#32, 0x00200010#32⟩
  , ⟨"SUB", .dpI, 0x0FE00000#32, 0x02400000#32⟩
  , ⟨"SUB", .dpRI, 0x0FE00010#32, 0x00400000#32⟩
  , ⟨"SUB", .dpRR, 0x0FE00090#32, 0x00400010#32⟩
  , ⟨"RSB", .dpI, 0x0FE00000#32, 0x02600000#32⟩
  , ⟨"RSB", .dpRI, 0x0FE00010#32, 0x00600000#32⟩
  , ⟨"RSB", .dpRR, 0x0FE00090#32, 0x00600010#32⟩
  , ⟨"ADD", .dpI, 0x0FE00000#32, 0x02800000#32⟩
  , ⟨"ADD", .dpRI, 0x0FE00010#32, 0x00800000#32⟩
  , ⟨"ADD", .dpRR, 0x0FE00090#32, 0x00800010#32⟩
  , ⟨"ADC", .dpI, 0x0FE00000#32, 0x02A00000#32⟩
  , ⟨"ADC", .dpRI, 0x0FE00010#32, 0x00A00000#32⟩
  , ⟨"ADC", .dpRR, 0x0FE00090#32, 0x00A00010#32⟩
  , ⟨"SBC", .dpI, 0x0FE00000#32, 0x02C00000#32⟩
  , ⟨"SBC", .dpRI, 0x0FE00010#32, 0x00C00000#32⟩
  , ⟨"SBC", .dpRR, 0x0FE00090#32, 0x00C00010#32⟩
  , ⟨"RSC", .dpI, 0x0FE00000#32, 0x02E00000#32⟩
  , ⟨"RSC", .dpRI, 0x0FE00010#32, 0x00E00000#32⟩
  , ⟨"RSC", .dpRR, 0x0FE00090#32, 0x00E00010#32⟩ ]

/-- The rows of opcodes 1000 to 1111. -/
def aluRowsHigh : List TableRow :=
  [ ⟨"TST", .dpI, 0x0FE00000#32, 0x03000000#32⟩
  , ⟨"TST", .dpRI, 0x0FE00010#32, 0x01000000#32⟩
  , ⟨"TST", .dpRR, 0x0FE00090#32, 0x01000010#32⟩
  , ⟨"TEQ", .dpI, 0x0FF00000#32, 0x03300000#32⟩
  , ⟨"TEQ", .dpRI, 0x0FF00010#32, 0x01300000#32⟩
  , ⟨"TEQ", .dpRR, 0x0FF00090#32, 0x01300010#32⟩
  , ⟨"PSRX", .dpI, 0x0FF00000#32, 0x03200000#32⟩
  , ⟨"PSRX", .dpRI, 0x0FF00010#32, 0x01200000#32⟩
  , ⟨"PSRX", .dpRR, 0x0FF00090#32, 0x01200010#32⟩
  , ⟨"CMP", .dpI, 0x0FE00000#32, 0x03400000#32⟩
  , ⟨"CMP", .dpRI, 0x0FE00010#32, 0x01400000#32⟩
  , ⟨"CMP", .dpRR, 0x0FE00090#32, 0x01400010#32⟩
  , ⟨"CMN", .dpI, 0x0FE00000#32, 0x03600000#32⟩
  , ⟨"CMN", .dpRI, 0x0FE00010#32, 0x01600000#32⟩
  , ⟨"CMN", .dpRR, 0x0FE00090#32, 0x01600010#32⟩
  , ⟨"ORR", .dpI, 0x0FE00000#32, 0x03800000#32⟩
  , ⟨"ORR", .dpRI, 0x0FE00010#32, 0x01800000#32⟩
  , ⟨"ORR", .dpRR, 0x0FE00090#32, 0x01800010#32⟩
  , ⟨"MOV", .dpI, 0x0FE00000#32, 0x03A00000#32⟩
  , ⟨"MOV", .dpRI, 0x0FE00010#32, 0x01A00000#32⟩
  , ⟨"MOV", .dpRR, 0x0FE00090#32, 0x01A00010#32⟩
  , ⟨"BIC", .dpI, 0x0FE00000#32, 0x03C00000#32⟩
  , ⟨"BIC", .dpRI, 0x0FE00010#32, 0x01C00000#32⟩
  , ⟨"BIC", .dpRR, 0x0FE00090#32, 0x01C00010#32⟩
  , ⟨"MVN", .dpI, 0x0FE00000#32, 0x03E00000#32⟩
  , ⟨"MVN", .dpRI, 0x0FE00010#32, 0x01E00000#32⟩
  , ⟨"MVN", .dpRR, 0x0FE00090#32, 0x01E00010#32⟩ ]

/-- The whole table; its last row takes every word. -/
def opcodeTable : List TableRow :=
  branchRows ++ aluRowsLow ++ aluRowsHigh
    ++ [⟨"UNDEFINED", .und, 0x0E000010#32, 0x06000010#32⟩, ⟨"UNCLASSIFIED", .none, 0x00000000#32, 0x00000000#32⟩]

/-- The first row of a table whose masked bits are the word's. -/
def firstRow (rows : List TableRow) (w : Word) : Option TableRow :=
  rows.find? fun r => w &&& r.mask == r.value

end Sys2Proof
end

