-- ==== Sys2Proof/Machine/Operands.lean ====
section
/-! DEFINITION. Operand and immediate assembly (30_encoding.md R75 to R80) and the branch target (41_branch.md R122). -/

namespace Sys2Proof.Machine

/-- `ROR32` of 00_scope.md R8. -/
def ror32 (v : Word) (n : Nat) : Word :=
  if n = 0 then v else (v >>> n) ||| (v <<< (32 - n))

/-- `rotate_amount` of R78: twice the rotate field, 0 to 30. -/
def rotateAmount (rot : BitVec 4) : BitVec 5 := rot ++ 0b0#1

/-- `imm_value` of R78. -/
def immValue (rot : BitVec 4) (imm8 : BitVec 8) : Word :=
  ror32 (imm8.setWidth 32) (rotateAmount rot).toNat

/-- `shiftType` of R77: rotate-right by an immediate 0 is re-tagged as RRX, nothing else is (92 D18). -/
def shiftType (kind : ShiftKind) (byReg : Bool) (imm5 : BitVec 5) : ShiftType :=
  match kind with
  | .lsl => .lsl
  | .lsr => .lsr
  | .asr => .asr
  | .ror => if !byReg && imm5 == 0#5 then .rrx else .ror

/-- Operand 2 of the immediate form (43_data_processing.md R151). -/
def operand2Imm (o : ImmOperand) : Operand2 :=
  .imm o.rot (rotateAmount o.rot) o.imm8 (immValue o.rot o.imm8)

/-- Operand 2 of a register shifted by an immediate (R152). -/
def operand2RegImm (o : ShiftImmOperand) : Operand2 :=
  .reg o.rm (shiftType o.kind false o.shiftImm) (.immAmount o.shiftImm)

/-- Operand 2 of a register shifted by a register (R153). In such a word bits 11–7 are `rs` and a 0. -/
def operand2RegReg (o : ShiftRegOperand) : Operand2 :=
  .reg o.rm (shiftType o.kind true (o.rs ++ 0b0#1)) (.regAmount o.rs)

/-- The operation a data-processing word names (R75) with the status-register-transfer re-tag (R76, 92 D17). -/
def aluOpName (opcode : BitVec 4) (s : Bool) : AluOp :=
  match aluOpcodeOf opcode with
  | .and => .and | .eor => .eor | .sub => .sub | .rsb => .rsb
  | .add => .add | .adc => .adc | .sbc => .sbc | .rsc => .rsc
  | .tst => .tst
  | .teq => if s then .teq else .statusRegisterTransfer
  | .cmp => .cmp | .cmn => .cmn
  | .orr => .orr | .mov => .mov | .bic => .bic | .mvn => .mvn

/-- The branch byte offset (30_encoding.md R79; signed by conflict C1). -/
def branchByteOffset (imm24 : BitVec 24) : Word := (imm24 ++ 0b00#2).signExtend 32

/-- The branch target (R122), modulo 2^32 (92 D2). -/
def branchTarget (pc byteOffset : Word) : Word := pc + Config.branchBias + byteOffset

end Sys2Proof.Machine
end

