-- ==== Sys2Proof/Machine/State.lean ====
section
/-! DEFINITION. The state of a walk (10_state.md R29, R32; 20_memory.md R40), its outcomes and its reset value. The block
itself has no state (R20). -/

namespace Sys2Proof.Machine

/-- The image's bytes, by offset: a list with offsets strictly rising and no entry equal to what an unlisted offset
reads as (log entry 3). -/
abbrev Memory := List Host.Cell

/-- What one call of the block hands out: the decoded record, to the renderer, and the resolver's answer, to the driver
(40_decode_pipeline.md R100). -/
structure CallOutput where
  record : Decoded
  newPc : Option Word
  deriving DecidableEq, Repr

/-- The driver's state (R29), the image it refers to (R40), and the outputs of the calls made so far, oldest first
(70_reset_and_hazards.md R242). -/
structure State where
  pc : Word
  inThumbMode : Bool
  image : Memory
  imageLen : Nat
  emitted : List CallOutput
  deriving DecidableEq, Repr

/-- The block's one fault. -/
inductive Fault where
  /-- The resolver's defensive check (40_decode_pipeline.md R106, 60_exceptions.md R211): raised by `resolveTagged` when
  the PC-change tag disagrees with the record; no word reaches it. Safe: a fault is never a final state. -/
  | inconsistentPcChangeTag
  deriving DecidableEq, Repr

/-- Why a walk step has no meaning (60_exceptions.md R212). Each is raised by `fetch`, before any word is read. -/
inductive Refusal where
  /-- An instruction the model gives no meaning. No arm of `exec` answers with it. Safe. -/
  | notModelled (mnemonic : String)
  /-- The mode is THUMB (10_state.md R31, 92 D10). Safe. -/
  | thumbMode
  /-- The position is not a multiple of 4 (20_memory.md R43, 92 D8). Safe. -/
  | misaligned
  /-- The four bytes at the position pass the end of the image (20_memory.md R42, 92 D9). Safe. -/
  | outOfBounds
  deriving DecidableEq, Repr

/-- The outcome of a meaning or a step. -/
abbrev Result := Host.Outcome State Fault Refusal

/-- Before an image is loaded: ARM mode (R32), nothing emitted, and the values log entries 1, 2 and 5 name for the OPEN
parameters. `bootState` is the start of a walk with those parameters given. -/
def State.reset : State :=
  { pc := Config.resetPc
    inThumbMode := false
    image := []
    imageLen := 0
    emitted := [] }

end Sys2Proof.Machine
end

