-- ==== Sys2Proof/Machine/Ops.lean ====
section
/-! DEFINITION. The operations every meaning and the step share: the image's bytes, the word read, the resolver, the
block's call and the driver's next position. The block takes no exception and returns from none (60_exceptions.md R210,
R215), so there is no such operation. -/

namespace Sys2Proof.Machine

/-! The image. -/

/-- The byte of the image at an offset (20_memory.md R40). -/
def Memory.read : Memory → Nat → Byte
  | [], _ => Config.unlistedByte
  | (a, b) :: rest, off => if a = off then b else Memory.read rest off

/-- Puts a byte into the image, keeping the canonical form. The walk never does (R45); loading does (log entry 2). -/
def Memory.write : Memory → Nat → Byte → Memory
  | [], off, v => if v = Config.unlistedByte then [] else [(off, v)]
  | (a, b) :: rest, off, v =>
    if off < a then
      if v = Config.unlistedByte then (a, b) :: rest else (off, v) :: (a, b) :: rest
    else if off = a then
      if v = Config.unlistedByte then rest else (off, v) :: rest
    else (a, b) :: Memory.write rest off v

/-- The canonical form: offsets strictly rising, each at least `low`, and no entry that reads as an unlisted offset. -/
def Memory.wfFrom : Memory → Nat → Bool
  | [], _ => true
  | (a, b) :: rest, low => decide (low ≤ a) && decide (b ≠ Config.unlistedByte) && Memory.wfFrom rest (a + 1)

/-- The canonical form of an image. -/
def Memory.wf (m : Memory) : Bool := Memory.wfFrom m 0

/-- Puts bytes at consecutive offsets, the first at `off`. -/
def Memory.load : Memory → Nat → List Byte → Memory
  | m, _, [] => m
  | m, off, b :: bs => Memory.load (Memory.write m off b) (off + 1) bs

/-- `MemRead(off, 4)` (20_memory.md R41). -/
def Memory.readWord (m : Memory) (off : Nat) : Word :=
  assembleWord (Memory.read m off) (Memory.read m (off + 1)) (Memory.read m (off + 2)) (Memory.read m (off + 3))

/-- The four bytes at the driver's position, the lowest offset first. -/
def State.fetchBytes (s : State) : List Byte :=
  [Memory.read s.image s.pc.toNat, Memory.read s.image (s.pc.toNat + 1),
   Memory.read s.image (s.pc.toNat + 2), Memory.read s.image (s.pc.toNat + 3)]

/-- The start of a walk (70_reset_and_hazards.md R241) for an image and an `INITIAL_PC`. -/
def bootState (image : List Byte) (initialPc : Word) : State :=
  { pc := initialPc
    inThumbMode := false
    image := Memory.load [] 0 image
    imageLen := image.length
    emitted := [] }

/-- The driver's read of the word at its position, or why the step is refused: mode, then alignment, then bounds, the
sum over unbounded integers (R242). -/
def fetch (s : State) : Except Refusal Word :=
  if s.inThumbMode then .error .thumbMode
  else if s.pc.toNat % Config.instrAlign ≠ 0 then .error .misaligned
  else if s.imageLen < s.pc.toNat + Config.instrAlign then .error .outOfBounds
  else .ok (Memory.readWord s.image s.pc.toNat)

/-! Updates of the state. -/

/-- `pc <- v` (10_state.md R30). -/
def State.setPc (s : State) (v : Word) : State := { s with pc := v }

/-- `emit` (R242): the call's output joins those emitted before. -/
def State.emit (s : State) (o : CallOutput) : State := { s with emitted := s.emitted ++ [o] }

/-- The records emitted so far, oldest first (95_test_vectors.md part 3). -/
def State.records (s : State) : List Decoded := s.emitted.map CallOutput.record

/-! The resolver and the call. -/

/-- The resolver (40_decode_pipeline.md R104). It reads no condition (41_branch.md R125) and no register. -/
def resolve (rec : Decoded) (pc : Word) : Option Word :=
  match rec.body with
  | .branch _ _ byteOffset => some (branchTarget pc byteOffset)
  | .branchExchange _ => none
  | .dataProcessing .. => none
  | .undefined => none
  | .unclassified => none

/-- The record is a Branch record. -/
def isBranchRecord (rec : Decoded) : Bool :=
  match rec.body with
  | .branch .. => true
  | .branchExchange _ => false
  | .dataProcessing .. => false
  | .undefined => false
  | .unclassified => false

/-- The resolver with the separate "changes PC" tag of R106 and its defensive check (92 D27; log entry 7). -/
def resolveTagged (changesPc : Bool) (rec : Decoded) (pc : Word) : Except Fault (Option Word) :=
  if changesPc = isBranchRecord rec then .ok (resolve rec pc) else .error .inconsistentPcChangeTag

/-- The driver's next position for a resolver's answer (10_state.md R30), modulo 2^32 (92 D13). -/
def nextPosition (pc : Word) (answer : Option Word) : Word :=
  match answer with
  | some t => t
  | none => pc + 4#32

/-- What a decoded word does at the driver's position (R242): its record goes through the resolver, record and answer are
emitted, the position moves. Mode and image stay as they are (R31, R45). -/
def callBlock (changesPc : Bool) (rec : Decoded) (s : State) : Result :=
  match resolveTagged changesPc rec s.pc with
  | .error f => .fault f
  | .ok answer => .next ((s.emit ⟨rec, answer⟩).setPc (nextPosition s.pc answer))

end Sys2Proof.Machine
end

