-- ==== Sys2Proof/Machine/Branch.lean ====
section
/-! DEFINITION. The meanings of B and BL (41_branch.md) and BX (42_branch_exchange.md). -/

namespace Sys2Proof.Machine

/-- The record of a Branch word (R120, R121). -/
def branchRecord (cond : Cond) (link : Bool) (imm24 : BitVec 24) : Decoded :=
  ⟨cond, .branch link imm24 (branchByteOffset imm24)⟩

/-- B (R120). -/
def execB (cond : Cond) (imm24 : BitVec 24) (s : State) : Result :=
  callBlock true (branchRecord cond false imm24) s

/-- BL (R121): the link flag is decoded only, no link register exists (R124). -/
def execBl (cond : Cond) (imm24 : BitVec 24) (s : State) : Result :=
  callBlock true (branchRecord cond true imm24) s

/-- BX (R140): no target and no change of mode (R141). -/
def execBx (cond : Cond) (rm : RegIdx) (s : State) : Result :=
  callBlock false ⟨cond, .branchExchange rm⟩ s

end Sys2Proof.Machine
end

