-- ==== Sys2Proof/Machine/DataProcessing.lean ====
section
/-! DEFINITION. The meanings of the data-processing instructions (43_data_processing.md): the record of R150 with the
operation's opcode and name, and the answer None (R155). No register or flag exists to be written (R20, R156). -/

namespace Sys2Proof.Machine

/-- The record of R150. -/
def dpRecord (cond : Cond) (i : Bool) (opcode : BitVec 4) (op : AluOp) (s : Bool) (rn rd : RegIdx) (op2 : Operand2) : Decoded :=
  ⟨cond, .dataProcessing i opcode op s rn rd op2⟩

/-! AND (43_data_processing.md R160). -/

/-- AND, format DP-I. -/
def execAndI (cond : Cond) (setFlags : Bool) (rn rd : RegIdx) (op2 : ImmOperand) (s : State) : Result :=
  callBlock false (dpRecord cond true 0b0000#4 .and setFlags rn rd (operand2Imm op2)) s

/-- AND, format DP-RI. -/
def execAndRI (cond : Cond) (setFlags : Bool) (rn rd : RegIdx) (op2 : ShiftImmOperand) (s : State) : Result :=
  callBlock false (dpRecord cond false 0b0000#4 .and setFlags rn rd (operand2RegImm op2)) s

/-- AND, format DP-RR. -/
def execAndRR (cond : Cond) (setFlags : Bool) (rn rd : RegIdx) (op2 : ShiftRegOperand) (s : State) : Result :=
  callBlock false (dpRecord cond false 0b0000#4 .and setFlags rn rd (operand2RegReg op2)) s

/-! EOR (43_data_processing.md R161). -/

/-- EOR, format DP-I. -/
def execEorI (cond : Cond) (setFlags : Bool) (rn rd : RegIdx) (op2 : ImmOperand) (s : State) : Result :=
  callBlock false (dpRecord cond true 0b0001#4 .eor setFlags rn rd (operand2Imm op2)) s

/-- EOR, format DP-RI. -/
def execEorRI (cond : Cond) (setFlags : Bool) (rn rd : RegIdx) (op2 : ShiftImmOperand) (s : State) : Result :=
  callBlock false (dpRecord cond false 0b0001#4 .eor setFlags rn rd (operand2RegImm op2)) s

/-- EOR, format DP-RR. -/
def execEorRR (cond : Cond) (setFlags : Bool) (rn rd : RegIdx) (op2 : ShiftRegOperand) (s : State) : Result :=
  callBlock false (dpRecord cond false 0b0001#4 .eor setFlags rn rd (operand2RegReg op2)) s

/-! SUB (43_data_processing.md R162). -/

/-- SUB, format DP-I. -/
def execSubI (cond : Cond) (setFlags : Bool) (rn rd : RegIdx) (op2 : ImmOperand) (s : State) : Result :=
  callBlock false (dpRecord cond true 0b0010#4 .sub setFlags rn rd (operand2Imm op2)) s

/-- SUB, format DP-RI. -/
def execSubRI (cond : Cond) (setFlags : Bool) (rn rd : RegIdx) (op2 : ShiftImmOperand) (s : State) : Result :=
  callBlock false (dpRecord cond false 0b0010#4 .sub setFlags rn rd (operand2RegImm op2)) s

/-- SUB, format DP-RR. -/
def execSubRR (cond : Cond) (setFlags : Bool) (rn rd : RegIdx) (op2 : ShiftRegOperand) (s : State) : Result :=
  callBlock false (dpRecord cond false 0b0010#4 .sub setFlags rn rd (operand2RegReg op2)) s

/-! RSB (43_data_processing.md R163). -/

/-- RSB, format DP-I. -/
def execRsbI (cond : Cond) (setFlags : Bool) (rn rd : RegIdx) (op2 : ImmOperand) (s : State) : Result :=
  callBlock false (dpRecord cond true 0b0011#4 .rsb setFlags rn rd (operand2Imm op2)) s

/-- RSB, format DP-RI. -/
def execRsbRI (cond : Cond) (setFlags : Bool) (rn rd : RegIdx) (op2 : ShiftImmOperand) (s : State) : Result :=
  callBlock false (dpRecord cond false 0b0011#4 .rsb setFlags rn rd (operand2RegImm op2)) s

/-- RSB, format DP-RR. -/
def execRsbRR (cond : Cond) (setFlags : Bool) (rn rd : RegIdx) (op2 : ShiftRegOperand) (s : State) : Result :=
  callBlock false (dpRecord cond false 0b0011#4 .rsb setFlags rn rd (operand2RegReg op2)) s

/-! ADD (43_data_processing.md R164). -/

/-- ADD, format DP-I. -/
def execAddI (cond : Cond) (setFlags : Bool) (rn rd : RegIdx) (op2 : ImmOperand) (s : State) : Result :=
  callBlock false (dpRecord cond true 0b0100#4 .add setFlags rn rd (operand2Imm op2)) s

/-- ADD, format DP-RI. -/
def execAddRI (cond : Cond) (setFlags : Bool) (rn rd : RegIdx) (op2 : ShiftImmOperand) (s : State) : Result :=
  callBlock false (dpRecord cond false 0b0100#4 .add setFlags rn rd (operand2RegImm op2)) s

/-- ADD, format DP-RR. -/
def execAddRR (cond : Cond) (setFlags : Bool) (rn rd : RegIdx) (op2 : ShiftRegOperand) (s : State) : Result :=
  callBlock false (dpRecord cond false 0b0100#4 .add setFlags rn rd (operand2RegReg op2)) s

/-! ADC (43_data_processing.md R165). -/

/-- ADC, format DP-I. -/
def execAdcI (cond : Cond) (setFlags : Bool) (rn rd : RegIdx) (op2 : ImmOperand) (s : State) : Result :=
  callBlock false (dpRecord cond true 0b0101#4 .adc setFlags rn rd (operand2Imm op2)) s

/-- ADC, format DP-RI. -/
def execAdcRI (cond : Cond) (setFlags : Bool) (rn rd : RegIdx) (op2 : ShiftImmOperand) (s : State) : Result :=
  callBlock false (dpRecord cond false 0b0101#4 .adc setFlags rn rd (operand2RegImm op2)) s

/-- ADC, format DP-RR. -/
def execAdcRR (cond : Cond) (setFlags : Bool) (rn rd : RegIdx) (op2 : ShiftRegOperand) (s : State) : Result :=
  callBlock false (dpRecord cond false 0b0101#4 .adc setFlags rn rd (operand2RegReg op2)) s

/-! SBC (43_data_processing.md R166). -/

/-- SBC, format DP-I. -/
def execSbcI (cond : Cond) (setFlags : Bool) (rn rd : RegIdx) (op2 : ImmOperand) (s : State) : Result :=
  callBlock false (dpRecord cond true 0b0110#4 .sbc setFlags rn rd (operand2Imm op2)) s

/-- SBC, format DP-RI. -/
def execSbcRI (cond : Cond) (setFlags : Bool) (rn rd : RegIdx) (op2 : ShiftImmOperand) (s : State) : Result :=
  callBlock false (dpRecord cond false 0b0110#4 .sbc setFlags rn rd (operand2RegImm op2)) s

/-- SBC, format DP-RR. -/
def execSbcRR (cond : Cond) (setFlags : Bool) (rn rd : RegIdx) (op2 : ShiftRegOperand) (s : State) : Result :=
  callBlock false (dpRecord cond false 0b0110#4 .sbc setFlags rn rd (operand2RegReg op2)) s

/-! RSC (43_data_processing.md R167). -/

/-- RSC, format DP-I. -/
def execRscI (cond : Cond) (setFlags : Bool) (rn rd : RegIdx) (op2 : ImmOperand) (s : State) : Result :=
  callBlock false (dpRecord cond true 0b0111#4 .rsc setFlags rn rd (operand2Imm op2)) s

/-- RSC, format DP-RI. -/
def execRscRI (cond : Cond) (setFlags : Bool) (rn rd : RegIdx) (op2 : ShiftImmOperand) (s : State) : Result :=
  callBlock false (dpRecord cond false 0b0111#4 .rsc setFlags rn rd (operand2RegImm op2)) s

/-- RSC, format DP-RR. -/
def execRscRR (cond : Cond) (setFlags : Bool) (rn rd : RegIdx) (op2 : ShiftRegOperand) (s : State) : Result :=
  callBlock false (dpRecord cond false 0b0111#4 .rsc setFlags rn rd (operand2RegReg op2)) s

/-! TST (43_data_processing.md R168). -/

/-- TST, format DP-I. -/
def execTstI (cond : Cond) (setFlags : Bool) (rn rd : RegIdx) (op2 : ImmOperand) (s : State) : Result :=
  callBlock false (dpRecord cond true 0b1000#4 .tst setFlags rn rd (operand2Imm op2)) s

/-- TST, format DP-RI. -/
def execTstRI (cond : Cond) (setFlags : Bool) (rn rd : RegIdx) (op2 : ShiftImmOperand) (s : State) : Result :=
  callBlock false (dpRecord cond false 0b1000#4 .tst setFlags rn rd (operand2RegImm op2)) s

/-- TST, format DP-RR. -/
def execTstRR (cond : Cond) (setFlags : Bool) (rn rd : RegIdx) (op2 : ShiftRegOperand) (s : State) : Result :=
  callBlock false (dpRecord cond false 0b1000#4 .tst setFlags rn rd (operand2RegReg op2)) s

/-! TEQ (43_data_processing.md R169). -/

/-- TEQ, format DP-I. -/
def execTeqI (cond : Cond) (rn rd : RegIdx) (op2 : ImmOperand) (s : State) : Result :=
  callBlock false (dpRecord cond true 0b1001#4 .teq true rn rd (operand2Imm op2)) s

/-- TEQ, format DP-RI. -/
def execTeqRI (cond : Cond) (rn rd : RegIdx) (op2 : ShiftImmOperand) (s : State) : Result :=
  callBlock false (dpRecord cond false 0b1001#4 .teq true rn rd (operand2RegImm op2)) s

/-- TEQ, format DP-RR. -/
def execTeqRR (cond : Cond) (rn rd : RegIdx) (op2 : ShiftRegOperand) (s : State) : Result :=
  callBlock false (dpRecord cond false 0b1001#4 .teq true rn rd (operand2RegReg op2)) s

/-! PSRX (43_data_processing.md R170). -/

/-- PSRX, format DP-I. -/
def execPsrxI (cond : Cond) (rn rd : RegIdx) (op2 : ImmOperand) (s : State) : Result :=
  callBlock false (dpRecord cond true 0b1001#4 .statusRegisterTransfer false rn rd (operand2Imm op2)) s

/-- PSRX, format DP-RI. -/
def execPsrxRI (cond : Cond) (rn rd : RegIdx) (op2 : ShiftImmOperand) (s : State) : Result :=
  callBlock false (dpRecord cond false 0b1001#4 .statusRegisterTransfer false rn rd (operand2RegImm op2)) s

/-- PSRX, format DP-RR. -/
def execPsrxRR (cond : Cond) (rn rd : RegIdx) (op2 : ShiftRegOperand) (s : State) : Result :=
  callBlock false (dpRecord cond false 0b1001#4 .statusRegisterTransfer false rn rd (operand2RegReg op2)) s

/-! CMP (43_data_processing.md R171). -/

/-- CMP, format DP-I. -/
def execCmpI (cond : Cond) (setFlags : Bool) (rn rd : RegIdx) (op2 : ImmOperand) (s : State) : Result :=
  callBlock false (dpRecord cond true 0b1010#4 .cmp setFlags rn rd (operand2Imm op2)) s

/-- CMP, format DP-RI. -/
def execCmpRI (cond : Cond) (setFlags : Bool) (rn rd : RegIdx) (op2 : ShiftImmOperand) (s : State) : Result :=
  callBlock false (dpRecord cond false 0b1010#4 .cmp setFlags rn rd (operand2RegImm op2)) s

/-- CMP, format DP-RR. -/
def execCmpRR (cond : Cond) (setFlags : Bool) (rn rd : RegIdx) (op2 : ShiftRegOperand) (s : State) : Result :=
  callBlock false (dpRecord cond false 0b1010#4 .cmp setFlags rn rd (operand2RegReg op2)) s

/-! CMN (43_data_processing.md R172). -/

/-- CMN, format DP-I. -/
def execCmnI (cond : Cond) (setFlags : Bool) (rn rd : RegIdx) (op2 : ImmOperand) (s : State) : Result :=
  callBlock false (dpRecord cond true 0b1011#4 .cmn setFlags rn rd (operand2Imm op2)) s

/-- CMN, format DP-RI. -/
def execCmnRI (cond : Cond) (setFlags : Bool) (rn rd : RegIdx) (op2 : ShiftImmOperand) (s : State) : Result :=
  callBlock false (dpRecord cond false 0b1011#4 .cmn setFlags rn rd (operand2RegImm op2)) s

/-- CMN, format DP-RR. -/
def execCmnRR (cond : Cond) (setFlags : Bool) (rn rd : RegIdx) (op2 : ShiftRegOperand) (s : State) : Result :=
  callBlock false (dpRecord cond false 0b1011#4 .cmn setFlags rn rd (operand2RegReg op2)) s

/-! ORR (43_data_processing.md R173). -/

/-- ORR, format DP-I. -/
def execOrrI (cond : Cond) (setFlags : Bool) (rn rd : RegIdx) (op2 : ImmOperand) (s : State) : Result :=
  callBlock false (dpRecord cond true 0b1100#4 .orr setFlags rn rd (operand2Imm op2)) s

/-- ORR, format DP-RI. -/
def execOrrRI (cond : Cond) (setFlags : Bool) (rn rd : RegIdx) (op2 : ShiftImmOperand) (s : State) : Result :=
  callBlock false (dpRecord cond false 0b1100#4 .orr setFlags rn rd (operand2RegImm op2)) s

/-- ORR, format DP-RR. -/
def execOrrRR (cond : Cond) (setFlags : Bool) (rn rd : RegIdx) (op2 : ShiftRegOperand) (s : State) : Result :=
  callBlock false (dpRecord cond false 0b1100#4 .orr setFlags rn rd (operand2RegReg op2)) s

/-! MOV (43_data_processing.md R174). -/

/-- MOV, format DP-I. -/
def execMovI (cond : Cond) (setFlags : Bool) (rn rd : RegIdx) (op2 : ImmOperand) (s : State) : Result :=
  callBlock false (dpRecord cond true 0b1101#4 .mov setFlags rn rd (operand2Imm op2)) s

/-- MOV, format DP-RI. -/
def execMovRI (cond : Cond) (setFlags : Bool) (rn rd : RegIdx) (op2 : ShiftImmOperand) (s : State) : Result :=
  callBlock false (dpRecord cond false 0b1101#4 .mov setFlags rn rd (operand2RegImm op2)) s

/-- MOV, format DP-RR. -/
def execMovRR (cond : Cond) (setFlags : Bool) (rn rd : RegIdx) (op2 : ShiftRegOperand) (s : State) : Result :=
  callBlock false (dpRecord cond false 0b1101#4 .mov setFlags rn rd (operand2RegReg op2)) s

/-! BIC (43_data_processing.md R175). -/

/-- BIC, format DP-I. -/
def execBicI (cond : Cond) (setFlags : Bool) (rn rd : RegIdx) (op2 : ImmOperand) (s : State) : Result :=
  callBlock false (dpRecord cond true 0b1110#4 .bic setFlags rn rd (operand2Imm op2)) s

/-- BIC, format DP-RI. -/
def execBicRI (cond : Cond) (setFlags : Bool) (rn rd : RegIdx) (op2 : ShiftImmOperand) (s : State) : Result :=
  callBlock false (dpRecord cond false 0b1110#4 .bic setFlags rn rd (operand2RegImm op2)) s

/-- BIC, format DP-RR. -/
def execBicRR (cond : Cond) (setFlags : Bool) (rn rd : RegIdx) (op2 : ShiftRegOperand) (s : State) : Result :=
  callBlock false (dpRecord cond false 0b1110#4 .bic setFlags rn rd (operand2RegReg op2)) s

/-! MVN (43_data_processing.md R176). -/

/-- MVN, format DP-I. -/
def execMvnI (cond : Cond) (setFlags : Bool) (rn rd : RegIdx) (op2 : ImmOperand) (s : State) : Result :=
  callBlock false (dpRecord cond true 0b1111#4 .mvn setFlags rn rd (operand2Imm op2)) s

/-- MVN, format DP-RI. -/
def execMvnRI (cond : Cond) (setFlags : Bool) (rn rd : RegIdx) (op2 : ShiftImmOperand) (s : State) : Result :=
  callBlock false (dpRecord cond false 0b1111#4 .mvn setFlags rn rd (operand2RegImm op2)) s

/-- MVN, format DP-RR. -/
def execMvnRR (cond : Cond) (setFlags : Bool) (rn rd : RegIdx) (op2 : ShiftRegOperand) (s : State) : Result :=
  callBlock false (dpRecord cond false 0b1111#4 .mvn setFlags rn rd (operand2RegReg op2)) s

end Sys2Proof.Machine
end

