-- ==== Sys2Proof/Machine/Fallback.lean ====
section
/-! DEFINITION. The meanings of UNDEFINED and UNCLASSIFIED words (44_undefined_unclassified.md): a record with the
condition alone, and no trap (60_exceptions.md R210). -/

namespace Sys2Proof.Machine

/-- UNDEFINED (R200). -/
def execUndefined (cond : Cond) (s : State) : Result :=
  callBlock false ⟨cond, .undefined⟩ s

/-- UNCLASSIFIED (R201). -/
def execUnclassified (word : Word) (s : State) : Result :=
  callBlock false ⟨condOf word, .unclassified⟩ s

end Sys2Proof.Machine
end

