-- ==== Sys2Proof/Machine/Dispatch.lean ====
section
/-! DEFINITION. The dispatch: one arm per constructor of `Instr`, each one call of its meaning. -/

namespace Sys2Proof.Machine

/-- The effect of one decoded word at the driver's position. -/
def exec (i : Instr) (s : State) : Host.Outcome State Fault Refusal :=
  match i with
  | .b cond imm24 => Sys2Proof.Machine.execB cond imm24 s
  | .bl cond imm24 => Sys2Proof.Machine.execBl cond imm24 s
  | .bx cond rm => Sys2Proof.Machine.execBx cond rm s
  | .andI cond setFlags rn rd op2 => Sys2Proof.Machine.execAndI cond setFlags rn rd op2 s
  | .andRI cond setFlags rn rd op2 => Sys2Proof.Machine.execAndRI cond setFlags rn rd op2 s
  | .andRR cond setFlags rn rd op2 => Sys2Proof.Machine.execAndRR cond setFlags rn rd op2 s
  | .eorI cond setFlags rn rd op2 => Sys2Proof.Machine.execEorI cond setFlags rn rd op2 s
  | .eorRI cond setFlags rn rd op2 => Sys2Proof.Machine.execEorRI cond setFlags rn rd op2 s
  | .eorRR cond setFlags rn rd op2 => Sys2Proof.Machine.execEorRR cond setFlags rn rd op2 s
  | .subI cond setFlags rn rd op2 => Sys2Proof.Machine.execSubI cond setFlags rn rd op2 s
  | .subRI cond setFlags rn rd op2 => Sys2Proof.Machine.execSubRI cond setFlags rn rd op2 s
  | .subRR cond setFlags rn rd op2 => Sys2Proof.Machine.execSubRR cond setFlags rn rd op2 s
  | .rsbI cond setFlags rn rd op2 => Sys2Proof.Machine.execRsbI cond setFlags rn rd op2 s
  | .rsbRI cond setFlags rn rd op2 => Sys2Proof.Machine.execRsbRI cond setFlags rn rd op2 s
  | .rsbRR cond setFlags rn rd op2 => Sys2Proof.Machine.execRsbRR cond setFlags rn rd op2 s
  | .addI cond setFlags rn rd op2 => Sys2Proof.Machine.execAddI cond setFlags rn rd op2 s
  | .addRI cond setFlags rn rd op2 => Sys2Proof.Machine.execAddRI cond setFlags rn rd op2 s
  | .addRR cond setFlags rn rd op2 => Sys2Proof.Machine.execAddRR cond setFlags rn rd op2 s
  | .adcI cond setFlags rn rd op2 => Sys2Proof.Machine.execAdcI cond setFlags rn rd op2 s
  | .adcRI cond setFlags rn rd op2 => Sys2Proof.Machine.execAdcRI cond setFlags rn rd op2 s
  | .adcRR cond setFlags rn rd op2 => Sys2Proof.Machine.execAdcRR cond setFlags rn rd op2 s
  | .sbcI cond setFlags rn rd op2 => Sys2Proof.Machine.execSbcI cond setFlags rn rd op2 s
  | .sbcRI cond setFlags rn rd op2 => Sys2Proof.Machine.execSbcRI cond setFlags rn rd op2 s
  | .sbcRR cond setFlags rn rd op2 => Sys2Proof.Machine.execSbcRR cond setFlags rn rd op2 s
  | .rscI cond setFlags rn rd op2 => Sys2Proof.Machine.execRscI cond setFlags rn rd op2 s
  | .rscRI cond setFlags rn rd op2 => Sys2Proof.Machine.execRscRI cond setFlags rn rd op2 s
  | .rscRR cond setFlags rn rd op2 => Sys2Proof.Machine.execRscRR cond setFlags rn rd op2 s
  | .tstI cond setFlags rn rd op2 => Sys2Proof.Machine.execTstI cond setFlags rn rd op2 s
  | .tstRI cond setFlags rn rd op2 => Sys2Proof.Machine.execTstRI cond setFlags rn rd op2 s
  | .tstRR cond setFlags rn rd op2 => Sys2Proof.Machine.execTstRR cond setFlags rn rd op2 s
  | .teqI cond rn rd op2 => Sys2Proof.Machine.execTeqI cond rn rd op2 s
  | .teqRI cond rn rd op2 => Sys2Proof.Machine.execTeqRI cond rn rd op2 s
  | .teqRR cond rn rd op2 => Sys2Proof.Machine.execTeqRR cond rn rd op2 s
  | .psrxI cond rn rd op2 => Sys2Proof.Machine.execPsrxI cond rn rd op2 s
  | .psrxRI cond rn rd op2 => Sys2Proof.Machine.execPsrxRI cond rn rd op2 s
  | .psrxRR cond rn rd op2 => Sys2Proof.Machine.execPsrxRR cond rn rd op2 s
  | .cmpI cond setFlags rn rd op2 => Sys2Proof.Machine.execCmpI cond setFlags rn rd op2 s
  | .cmpRI cond setFlags rn rd op2 => Sys2Proof.Machine.execCmpRI cond setFlags rn rd op2 s
  | .cmpRR cond setFlags rn rd op2 => Sys2Proof.Machine.execCmpRR cond setFlags rn rd op2 s
  | .cmnI cond setFlags rn rd op2 => Sys2Proof.Machine.execCmnI cond setFlags rn rd op2 s
  | .cmnRI cond setFlags rn rd op2 => Sys2Proof.Machine.execCmnRI cond setFlags rn rd op2 s
  | .cmnRR cond setFlags rn rd op2 => Sys2Proof.Machine.execCmnRR cond setFlags rn rd op2 s
  | .orrI cond setFlags rn rd op2 => Sys2Proof.Machine.execOrrI cond setFlags rn rd op2 s
  | .orrRI cond setFlags rn rd op2 => Sys2Proof.Machine.execOrrRI cond setFlags rn rd op2 s
  | .orrRR cond setFlags rn rd op2 => Sys2Proof.Machine.execOrrRR cond setFlags rn rd op2 s
  | .movI cond setFlags rn rd op2 => Sys2Proof.Machine.execMovI cond setFlags rn rd op2 s
  | .movRI cond setFlags rn rd op2 => Sys2Proof.Machine.execMovRI cond setFlags rn rd op2 s
  | .movRR cond setFlags rn rd op2 => Sys2Proof.Machine.execMovRR cond setFlags rn rd op2 s
  | .bicI cond setFlags rn rd op2 => Sys2Proof.Machine.execBicI cond setFlags rn rd op2 s
  | .bicRI cond setFlags rn rd op2 => Sys2Proof.Machine.execBicRI cond setFlags rn rd op2 s
  | .bicRR cond setFlags rn rd op2 => Sys2Proof.Machine.execBicRR cond setFlags rn rd op2 s
  | .mvnI cond setFlags rn rd op2 => Sys2Proof.Machine.execMvnI cond setFlags rn rd op2 s
  | .mvnRI cond setFlags rn rd op2 => Sys2Proof.Machine.execMvnRI cond setFlags rn rd op2 s
  | .mvnRR cond setFlags rn rd op2 => Sys2Proof.Machine.execMvnRR cond setFlags rn rd op2 s
  | .undefined cond _ _ => Sys2Proof.Machine.execUndefined cond s
  | .unclassified word => Sys2Proof.Machine.execUnclassified word s

end Sys2Proof.Machine
end

