-- ==== Sys2Proof/Machine/Step.lean ====
section
/-! DEFINITION. One walk step (70_reset_and_hazards.md R242), and the placing of a word where the next step reads it. -/

namespace Sys2Proof.Machine

/-- One walk step: the word at the position is read, or the step is refused; the instruction it is takes its effect. -/
def step (s : State) : Host.Outcome State Fault Refusal :=
  match fetch s with
  | .error r => .refused r
  | .ok w => exec (decodeWord w) s

/-- The state with a word, numbered as the opcode table numbers it, in the image at the position, and the image long
enough to hold it (log entry 2). -/
def State.withFetchWord (s : State) (nbits w : Nat) : State :=
  { s with
    image := Memory.load s.image s.pc.toNat (wordBytes (tableWord nbits w))
    imageLen := max s.imageLen (s.pc.toNat + 4) }

end Sys2Proof.Machine
end

