-- ==== Sys2Proof/Machine/Flags.lean ====
section
/-! DEFINITION. Condition names (30_encoding.md R74). The block holds no flag, evaluates no condition and computes no
flag (10_state.md R27, 43_data_processing.md R156), so no flag computation stands here. -/

namespace Sys2Proof.Machine

/-- The fifteen condition names of R74. -/
inductive CondName where
  | equal | notEqual | carrySet | carryClear
  | minus | plus | overflowSet | overflowClear
  | unsignedHigher | unsignedLowerOrSame
  | signedGreaterOrEqual | signedLessThan | signedGreaterThan | signedLessOrEqual
  | always
  deriving DecidableEq, Repr

/-- The name of a condition value (R74; names 3 to 13 are 92 D15): 14 and the reserved 15 are both "always". -/
def condName (c : Cond) : CondName :=
  match c.toNat with
  | 0 => .equal | 1 => .notEqual | 2 => .carrySet | 3 => .carryClear
  | 4 => .minus | 5 => .plus | 6 => .overflowSet | 7 => .overflowClear
  | 8 => .unsignedHigher | 9 => .unsignedLowerOrSame
  | 10 => .signedGreaterOrEqual | 11 => .signedLessThan
  | 12 => .signedGreaterThan | 13 => .signedLessOrEqual
  | _ => .always

/-- The mnemonic of R74 (92 D15; the first of two where R74 gives two, log entry 10). -/
def condMnemonic : CondName → String
  | .equal => "EQ" | .notEqual => "NE" | .carrySet => "CS" | .carryClear => "CC"
  | .minus => "MI" | .plus => "PL" | .overflowSet => "VS" | .overflowClear => "VC"
  | .unsignedHigher => "HI" | .unsignedLowerOrSame => "LS"
  | .signedGreaterOrEqual => "GE" | .signedLessThan => "LT"
  | .signedGreaterThan => "GT" | .signedLessOrEqual => "LE"
  | .always => "AL"

end Sys2Proof.Machine
end

