-- ==== Sys2Proof/Machine/Block.lean ====
section
/-! DEFINITION. The block as a function of its two inputs (40_decode_pipeline.md R100 to R104), word to record, and its
ports (10_state.md R22 to R25). The meanings of the instructions are written apart from it, from the instruction's fields. -/

namespace Sys2Proof.Machine

/-- Operand 2 of a data-processing word, by its form (43_data_processing.md R150 to R153). -/
def operand2Of (w : Word) : Operand2 :=
  if iBit w then .imm (rotOf w) (rotateAmount (rotOf w)) (imm8Of w) (immValue (rotOf w) (imm8Of w))
  else
    let shift := shiftType (shiftKindOf (typeOf w)) (byRegBit w) (shiftImmOf w)
    if byRegBit w then .reg (rmOf w) shift (.regAmount (rsOf w))
    else .reg (rmOf w) shift (.immAmount (shiftImmOf w))

/-- The payload of a word under a variant (R103). -/
def decodeBody (w : Word) : Variant → Body
  | .branch => .branch (linkBit w) (imm24Of w) (branchByteOffset (imm24Of w))
  | .branchExchange => .branchExchange (rmOf w)
  | .dataProcessing =>
    .dataProcessing (iBit w) (opcodeOf w) (aluOpName (opcodeOf w) (sBit w)) (sBit w) (rnOf w) (rdOf w) (operand2Of w)
  | .undefined => .undefined
  | .unclassified => .unclassified

/-- The record the block decodes from a word, under the variant the classifier chose (R100, R102). -/
def decodeRecord (w : Word) : Decoded := ⟨condOf w, decodeBody w (classify w)⟩

/-- The block (R100). -/
def decodeOne (w pc : Word) : Decoded × Option Word := (decodeRecord w, resolve (decodeRecord w) pc)

/-- The variant of a record. -/
def variantOf (rec : Decoded) : Variant :=
  match rec.body with
  | .branch .. => .branch
  | .branchExchange _ => .branchExchange
  | .dataProcessing .. => .dataProcessing
  | .undefined => .undefined
  | .unclassified => .unclassified

/-- `variant_o` (10_state.md R23). -/
def variantTag : Variant → BitVec 3
  | .branch => 0#3
  | .branchExchange => 1#3
  | .dataProcessing => 2#3
  | .undefined => 3#3
  | .unclassified => 4#3

/-- `dp_shift_type_o` (10_state.md R24). -/
def shiftTag : ShiftType → BitVec 3
  | .lsl => 0#3
  | .lsr => 1#3
  | .asr => 2#3
  | .ror => 3#3
  | .rrx => 4#3

/-- The ports of an operand 2; the others keep what `p` carries. -/
def operand2Ports (op2 : Operand2) (p : Ports) : Ports :=
  match op2 with
  | .imm rot amount imm8 value =>
    { p with dp_rot_o := rot, dp_rot_amount_o := amount, dp_imm8_o := imm8, dp_imm_value_o := value }
  | .reg rm shift (.immAmount n) =>
    { p with dp_rm_o := rm, dp_shift_type_o := shiftTag shift, dp_shift_by_reg_o := false, dp_shift_imm_o := n }
  | .reg rm shift (.regAmount rs) =>
    { p with dp_rm_o := rm, dp_shift_type_o := shiftTag shift, dp_shift_by_reg_o := true, dp_rs_o := rs }

/-- The ports of a payload; those of the other variants keep what `p` carries (R25). -/
def bodyPorts (body : Body) (p : Ports) : Ports :=
  match body with
  | .branch link imm24 byteOffset => { p with b_link_o := link, b_imm24_o := imm24, b_offset_o := byteOffset }
  | .branchExchange rm => { p with bx_rm_o := rm }
  | .dataProcessing i opcode op s rn rd op2 =>
    operand2Ports op2
      { p with
        dp_i_o := i, dp_opcode_o := opcode, dp_psr_xfer_o := op == .statusRegisterTransfer, dp_s_o := s,
        dp_rn_o := rn, dp_rd_o := rd }
  | .undefined => p
  | .unclassified => p

/-- `fault_o`: the resolver's defensive check failed, the tag being the classifier's (R106, R22). -/
def blockFault (w pc : Word) : Bool :=
  match resolveTagged (classify w == .branch) (decodeRecord w) pc with
  | .error _ => true
  | .ok _ => false

/-- The output ports for the inputs `word_i = w` and `current_pc_i = pc` (R22). A port whose "valid when" is false carries
the free value (R25, log entry 6). -/
def blockPorts (w pc : Word) : Ports :=
  let (rec, answer) := decodeOne w pc
  let free := Config.inactivePorts w pc
  bodyPorts rec.body
    { free with
      variant_o := variantTag (variantOf rec), cond_o := rec.cond,
      pc_change_valid_o := answer.isSome, new_pc_o := answer.getD free.new_pc_o, fault_o := blockFault w pc }

end Sys2Proof.Machine
end

