-- ==== Sys2Proof/Machine/Walk.lean ====
section
/-! DEFINITION. Walks and their ends (70_reset_and_hazards.md R245). -/

namespace Sys2Proof.Machine

/-- How a walk ended, with the state it ended in: its fuel was spent, or a step was refused, or (never, R106) faulted. -/
inductive WalkEnd where
  | fuelSpent (s : State)
  | refused (r : Refusal) (s : State)
  | faulted (f : Fault) (s : State)
  deriving DecidableEq, Repr

/-- At most `fuel` steps, ending at the first that is refused. The refused step leaves the state it found. -/
def walk : Nat → State → WalkEnd
  | 0, s => .fuelSpent s
  | fuel + 1, s =>
    match step s with
    | .next s' => walk fuel s'
    | .refused r => .refused r s
    | .fault f => .faulted f s

/-- The state a walk ended in. -/
def WalkEnd.state : WalkEnd → State
  | .fuelSpent s => s
  | .refused _ s => s
  | .faulted _ s => s

end Sys2Proof.Machine
end

