-- ==== Sys2Proof/Safety.lean ====
section
/-! DEFINITION. The terms the statements use: the driver's preconditions, the record invariants, and the walk invariant. -/

namespace Sys2Proof.Machine

/-- The preconditions of a call, which the driver owns (20_memory.md R42, R43; 10_state.md R31). -/
def Fetchable (s : State) : Prop :=
  s.inThumbMode = false ∧ s.pc.toNat % 4 = 0 ∧ s.pc.toNat + 4 ≤ s.imageLen

/-- The invariants of an operand 2 (40_decode_pipeline.md R101, second and third points). -/
def Operand2.Sound (i : Bool) : Operand2 → Prop
  | .imm rot amount imm8 value =>
    i = true ∧ amount.toNat = 2 * rot.toNat ∧ value = ror32 (imm8.setWidth 32) amount.toNat
  | .reg _ shift amount => i = false ∧ (shift = .rrx → amount = .immAmount 0#5)

/-- The invariants of a record (R101). -/
def Decoded.Sound (rec : Decoded) : Prop :=
  match rec.body with
  | .branch _ imm24 byteOffset => byteOffset = (imm24 ++ 0b00#2).signExtend 32
  | .branchExchange _ => True
  | .dataProcessing i opcode op s _ _ op2 =>
    Operand2.Sound i op2 ∧
    (op = .statusRegisterTransfer ↔ opcode = 0b1001#4 ∧ s = false) ∧
    (op ≠ .statusRegisterTransfer → op = aluOpName opcode true)
  | .undefined => True
  | .unclassified => True

/-- An output the block may hand out: a sound record, and an answer exactly for a Branch record (R104), a multiple of 4
(20_memory.md R43). -/
def CallOutput.Sound (o : CallOutput) : Prop :=
  Decoded.Sound o.record ∧ (o.newPc.isSome = true ↔ variantOf o.record = .branch) ∧
  ∀ t, o.newPc = some t → t.toNat % 4 = 0

/-- What every step of a walk keeps: ARM mode, an aligned position, an image in canonical form that lists no offset past
its end, and sound outputs. -/
structure WalkInv (s : State) : Prop where
  armMode : s.inThumbMode = false
  aligned : s.pc.toNat % 4 = 0
  imageWf : Memory.wf s.image = true
  imageInside : ∀ c ∈ s.image, c.1 < s.imageLen
  outputsSound : ∀ o ∈ s.emitted, CallOutput.Sound o

/-- The state after a word whose record the resolver does not resolve: the record is emitted with the answer None and the
walk goes on to the next word (10_state.md R30; the modulus of the sum is 92 D13). -/
def afterUnresolved (s : State) (rec : Decoded) : State :=
  { s with pc := s.pc + 4#32, emitted := s.emitted ++ [⟨rec, none⟩] }

/-- The state after a Branch word: the record is emitted with the target and the walk goes on there (R30). -/
def afterBranch (s : State) (rec : Decoded) (target : Word) : State :=
  { s with pc := target, emitted := s.emitted ++ [⟨rec, some target⟩] }

/-- The record of R150 in the word's bits, for an opcode and the operation it names. -/
def dpWordRecord (w : Word) (opcode : BitVec 4) (op : AluOp) : Decoded :=
  { cond := w.extractLsb' 28 4
    body := .dataProcessing (w.getLsbD 25) opcode op (w.getLsbD 20) (w.extractLsb' 16 4) (w.extractLsb' 12 4)
      (operand2Of w) }

end Sys2Proof.Machine
end

