-- ==== Sys2Proof/Certificates/Slice0/Obligations.lean ====
section
/-! DEFINITION. The statements for the provers; OBLIGATIONS.json lists them with what each rests on. -/

open Sys2Proof Sys2Proof.Machine

/-- Decoding the word of any well-formed instruction gives the instruction back. That UNDEFINED and UNCLASSIFIED carry
the undecoded bits as syntax, and which of their fields are well formed, is the model's choice (log entry 13). Log
entries it rests on: 9 (resolved conflicts: C2); 10 (names, re-tags and untreated cases: D16, D17); 13 (undecoded bits
as syntax). Rests on 30_encoding.md R62 to R67, 30_encoding.md R72, 30_encoding.md R82, notes/assumptions/9.md,
notes/assumptions/10.md, notes/assumptions/13.md. -/
def Obligations.DecodeOfEncodeGivesTheInstructionBack : Prop :=
  ∀ i : Instr, i.wf = true →
    decodeWord (encode i) = i ∧ decodeBytes (wordBytes (encode i)) = .ok (i, [])

/-- Every 32-bit word decodes to a well-formed instruction whose word it is. For UNDEFINED and UNCLASSIFIED words,
whose other bits R200 and R201 put into no record, that holds by the model's choice to carry the undecoded bits as
syntax (log entry 13). Log entries it rests on: 10 (names, re-tags and untreated cases: D17); 13 (undecoded bits as
syntax). Rests on 30_encoding.md R60, 30_encoding.md R72, 40_decode_pipeline.md R103, notes/assumptions/10.md,
notes/assumptions/13.md. -/
def Obligations.EncodeOfDecodeGivesTheWordBack : Prop :=
  ∀ w : Word, (decodeWord w).wf = true ∧ encode (decodeWord w) = w

/-- A few words of the test vectors decode to the instructions they stand for. The vectors of part 2 are marked
derived, and the undecoded bits as fields are the model's choice (log entry 13). Log entries it rests on: 9 (resolved
conflicts: C2); 10 (names, re-tags and untreated cases: D16, D17); 13 (undecoded bits as syntax). Rests on
95_test_vectors.md parts 1 and 2, notes/assumptions/9.md, notes/assumptions/10.md, notes/assumptions/13.md. -/
def Obligations.SpecWordsDecodeToTheirInstructions : Prop :=
  decodeWord 0xEA000000#32 = .b 14#4 0#24 ∧
    decodeWord 0x5B000010#32 = .bl 5#4 0x10#24 ∧
    decodeWord 0xE12FFF1E#32 = .bx 14#4 14#4 ∧
    decodeWord 0xE0902181#32 = .addRI 14#4 true 0#4 2#4 ⟨3#5, .lsl, 1#4⟩ ∧
    decodeWord 0xE0A11352#32 = .adcRR 14#4 false 1#4 1#4 ⟨3#4, .asr, 2#4⟩ ∧
    decodeWord 0xE2E87FFF#32 = .rscI 14#4 false 8#4 7#4 ⟨15#4, 0xFF#8⟩ ∧
    decodeWord 0xE329F01F#32 = .psrxI 14#4 9#4 15#4 ⟨0#4, 0x1F#8⟩ ∧
    decodeWord 0xE7F000F0#32 = .undefined 14#4 0xF8007#20 0#4 ∧
    decodeWord 0xE5910000#32 = .unclassified 0xE5910000#32

/-- Branch, BranchExchange, Undefined and Unclassified words are told by their bits as the predicates say. Formalises
R68, R69, R71, R72. -/
def Obligations.ClassifierFollowsThePredicatesOnTheWordsBits : Prop :=
  ∀ w : Word,
    (isBranch w = true ↔ w.extractLsb' 25 3 = 0b101#3) ∧
    (isBX w = true ↔ w &&& 0x0FFFFFF0#32 = 0x012FFF10#32) ∧
    (isBX w = true ↔ w.extractLsb' 4 24 = 0b000100101111111111110001#24) ∧
    (∀ k, 4 ≤ k → k ≤ 27 → isBX w = true → isBX (w ^^^ (1#32 <<< k)) = false) ∧
    (isUndef w = true ↔ w.extractLsb' 25 3 = 0b011#3 ∧ w.getLsbD 4 = true) ∧
    (classify w = .branch ↔ isBranch w = true) ∧
    (classify w = .branchExchange ↔ isBranch w = false ∧ isBX w = true) ∧
    (classify w = .dataProcessing ↔ isBranch w = false ∧ isBX w = false ∧ isDP w = true) ∧
    (classify w = .undefined ↔ isBranch w = false ∧ isBX w = false ∧ isDP w = false ∧ isUndef w = true) ∧
    (classify w = .unclassified ↔ isBranch w = false ∧ isBX w = false ∧ isDP w = false ∧ isUndef w = false)

/-- A register-form word is DataProcessing exactly when it is no BX and bits 7 and 4 are not both 1. (The equality of
the two readings is an inference the spec marks as its own.) Rests on 30_encoding.md R70, 30_encoding.md R81,
95_test_vectors.md S8. -/
def Obligations.DataProcessingRejectsTheReservedNibbles : Prop :=
  ∀ w : Word,
    (w.extractLsb' 25 3 = 0b001#3 → classify w = .dataProcessing) ∧
    (w.extractLsb' 25 3 = 0b000#3 →
      (classify w = .dataProcessing ↔
        isBX w = false ∧ w.extractLsb' 4 4 ≠ 0b1001#4 ∧ w.extractLsb' 4 4 ≠ 0b1011#4 ∧
          w.extractLsb' 4 4 ≠ 0b1101#4 ∧ w.extractLsb' 4 4 ≠ 0b1111#4) ∧
      (classify w = .dataProcessing ↔ isBX w = false ∧ ¬(w.getLsbD 7 = true ∧ w.getLsbD 4 = true)) ∧
      (w.getLsbD 7 = true ∧ w.getLsbD 4 = true → classify w = .unclassified))

/-- At most one predicate holds of a word, so any order, and last match, classify as first match does. (R73 marks this
as its own inference.) Rests on 30_encoding.md R73, 95_test_vectors.md S1. -/
def Obligations.PredicatesExcludeEachOtherInAnyOrder : Prop :=
  ∀ w : Word,
    variantPredicates.Pairwise (fun p q => ¬(p.1 w = true ∧ q.1 w = true)) ∧
    lastMatch variantPredicates w = classify w ∧
    ∀ order : List ((Word → Bool) × Variant), order.Perm variantPredicates →
      firstMatch order w = classify w ∧ lastMatch order w = classify w

/-- How many of the 2^32 words each variant has. (R73 marks the counts as its own inference.) Rests on 30_encoding.md
R73, 95_test_vectors.md S1. -/
def Obligations.WordsOfEachVariantAreCounted : Prop :=
  Nat.card {w : Word // classify w = .branch} = 2 ^ 29 ∧
  Nat.card {w : Word // classify w = .branchExchange} = 2 ^ 8 ∧
  Nat.card {w : Word // classify w = .dataProcessing} = 2 ^ 29 + 3 * 2 ^ 27 - 2 ^ 8 ∧
  Nat.card {w : Word // classify w = .undefined} = 2 ^ 28 ∧
  Nat.card {w : Word // classify w = .unclassified} = 2550136832

/-- The first row of the opcode table whose masked bits match is the row of the decoded instruction. Log entries it
rests on: 10 (names, re-tags and untreated cases: D16, D17). Rests on 30_encoding.md opening paragraph,
opcode_table.json, 30_encoding.md R72, notes/assumptions/10.md. -/
def Obligations.OpcodeTableFirstRowNamesTheDecodedInstruction : Prop :=
  ∀ w : Word, ∃ r, firstRow opcodeTable w = some r ∧
    r.mnemonic = mnemonicOf (decodeWord w) ∧ r.format = formatOf (decodeWord w)

/-- The opcode map by class bits. (R82 marks the map as derived.) Rests on 30_encoding.md R82, 20_memory.md R51,
30_encoding.md R81. -/
def Obligations.ClassBitsGiveTheVariant : Prop :=
  ∀ w : Word, classify w =
    match (w.extractLsb' 25 3).toNat with
    | 0 => if w.extractLsb' 4 24 = 0b000100101111111111110001#24 then .branchExchange
           else if w.getLsbD 7 = true ∧ w.getLsbD 4 = true then .unclassified else .dataProcessing
    | 1 => .dataProcessing
    | 3 => if w.getLsbD 4 = true then .undefined else .unclassified
    | 5 => .branch
    | _ => .unclassified

/-- Words that differ only in the condition field have the same variant, payload and resolver answer. That the
resolver does not test the condition is the spec's resolution of conflict C3 (log entry 9), and that 1111 is no
exception its decision D19 (log entry 10). Log entries it rests on: 9 (resolved conflicts: C3); 10 (names, re-tags and
untreated cases: D19). Rests on 30_encoding.md R61, 30_encoding.md R81, 41_branch.md R125, 90_conflicts.md C3,
92_eei_decisions.md D19, notes/assumptions/9.md, notes/assumptions/10.md. -/
def Obligations.ConditionBitsNeitherChooseNorChangeTheBody : Prop :=
  ∀ w w' pc : Word, w.extractLsb' 0 28 = w'.extractLsb' 0 28 →
    classify w = classify w' ∧ (decodeOne w pc).1.body = (decodeOne w' pc).1.body ∧
    (decodeOne w pc).2 = (decodeOne w' pc).2

/-- The condition of every record is w >> 28, whatever the variant. The clause on meanings rests on what the model
takes a meaning to be (log entries 5, 13 and 15). Log entries it rests on: 5 (the outputs kept in the state); 13
(undecoded bits as syntax); 15 (a meaning is what a walk step does with the word). Rests on 40_decode_pipeline.md
R102, 70_reset_and_hazards.md R242, notes/assumptions/5.md, notes/assumptions/13.md, notes/assumptions/15.md. -/
def Obligations.EveryRecordCarriesBits31To28 : Prop :=
  (∀ w pc : Word,
      (decodeOne w pc).1.cond = w.extractLsb' 28 4 ∧ (decodeOne w pc).1.cond.setWidth 32 = w >>> 28) ∧
    (∀ (i : Instr) (s t : State), exec i s = .next t → ∃ o, t.emitted = s.emitted ++ [o] ∧
      o.record.cond.setWidth 32 = encode i >>> 28)

/-- The branch byte offset is four times the signed 24-bit field. That it is sign-extended is the spec's resolution of
conflict C1 (log entry 9). Log entries it rests on: 9 (resolved conflicts: C1). Rests on 30_encoding.md R79,
90_conflicts.md C1, notes/assumptions/9.md. -/
def Obligations.BranchByteOffsetIsSignedAndAligned : Prop :=
  (∀ imm24 : BitVec 24,
      branchByteOffset imm24 = (imm24 ++ 0b00#2).signExtend 32 ∧
      (branchByteOffset imm24).toInt = 4 * imm24.toInt ∧
      -(2 ^ 25) ≤ (branchByteOffset imm24).toInt ∧ (branchByteOffset imm24).toInt ≤ 2 ^ 25 - 4) ∧
    (branchByteOffset 0x800000#24).toInt = -(2 ^ 25) ∧ (branchByteOffset 0x7FFFFF#24).toInt = 2 ^ 25 - 4

/-- The rotated immediate is the zero-extended byte rotated right by twice the rotate field. Formalises R78. -/
def Obligations.RotatedImmediateIsRotatedRightInTheWord : Prop :=
  (∀ (rot : BitVec 4) (imm8 : BitVec 8),
      (rotateAmount rot).toNat = 2 * rot.toNat ∧ (rotateAmount rot).toNat ≤ 30 ∧
      immValue rot imm8 = (imm8.setWidth 32).rotateRight (2 * rot.toNat)) ∧
    immValue 0#4 0xFF#8 = 0x000000FF#32 ∧ immValue 1#4 0x01#8 = 0x40000000#32

/-- A record says RRX exactly for bits 6-5 = 11, bit 4 = 0 and bits 11-7 = 0. For every DataProcessing word in a
register form, operand 2 is register bits 3-0, shifted by register bits 11-8 with bit 4 = 1 and by the immediate bits
11-7 with bit 4 = 0, and the shift type is the one of bits 6-5 except that rotate-right by an immediate 0 is RRX; so
rotate-right by a register is never RRX, and LSL, LSR and ASR by an immediate 0 keep their type (that last clause is
the spec's decision D18). Log entries it rests on: 10 (names, re-tags and untreated cases: D18). Rests on
30_encoding.md R77, 30_encoding.md R80, 43_data_processing.md R152, 43_data_processing.md R153,
notes/assumptions/10.md. -/
def Obligations.RrxOnlyForRotateRightByImmediateZero : Prop :=
  ∀ w : Word, classify w = .dataProcessing → w.getLsbD 25 = false →
    ∃ shift, operand2Of w =
        .reg (w.extractLsb' 0 4) shift
          (if w.getLsbD 4 = true then .regAmount (w.extractLsb' 8 4) else .immAmount (w.extractLsb' 7 5)) ∧
      (shift = .rrx ↔ w.extractLsb' 5 2 = 0b11#2 ∧ w.getLsbD 4 = false ∧ w.extractLsb' 7 5 = 0#5) ∧
      (shift = .ror ↔ w.extractLsb' 5 2 = 0b11#2 ∧ ¬(w.getLsbD 4 = false ∧ w.extractLsb' 7 5 = 0#5)) ∧
      (shift = .lsl ↔ w.extractLsb' 5 2 = 0b00#2) ∧ (shift = .lsr ↔ w.extractLsb' 5 2 = 0b01#2) ∧
      (shift = .asr ↔ w.extractLsb' 5 2 = 0b10#2)

/-- Operand 2 of a DataProcessing word in the immediate and shift-by-register forms. The shift type is said by its
number, which is the spec's decision D4 (log entry 11), and that bit 7 is 0 is marked derived in R66. Log entries it
rests on: 11 (port numbers: D4). Rests on 43_data_processing.md R151, 43_data_processing.md R153, 30_encoding.md R66,
30_encoding.md R77, 10_state.md R24, 92_eei_decisions.md D4, notes/assumptions/11.md. -/
def Obligations.OperandTwoIsReadFromTheFormsFields : Prop :=
  (∀ (w pc : Word) i opcode op s rn rd op2,
      (decodeOne w pc).1.body = .dataProcessing i opcode op s rn rd op2 →
      (w.getLsbD 25 = true →
        op2 = .imm (w.extractLsb' 8 4) (w.extractLsb' 8 4 ++ 0#1) (w.extractLsb' 0 8)
          (((w.extractLsb' 0 8).setWidth 32).rotateRight (2 * (w.extractLsb' 8 4).toNat))) ∧
      (w.getLsbD 25 = false → w.getLsbD 4 = true →
        w.getLsbD 7 = false ∧
        ∃ shift, op2 = .reg (w.extractLsb' 0 4) shift (.regAmount (w.extractLsb' 8 4)) ∧ shift ≠ .rrx ∧
          shiftTag shift = (w.extractLsb' 5 2).setWidth 3)) ∧
    (∀ w : Word, w.extractLsb' 25 3 = 0b001#3 → ∃ opcode op s rn rd op2,
      (decodeRecord w).body = .dataProcessing true opcode op s rn rd op2) ∧
    operand2Of 0xE3A000FF#32 = .imm 0#4 0#5 0xFF#8 0xFF#32 ∧
    operand2Of 0xE3A01101#32 = .imm 1#4 2#5 0x01#8 0x40000000#32 ∧
    operand2Of 0x11A03074#32 = .reg 4#4 .ror (.regAmount 0#4)

/-- A B or BL word: its record, and its target whatever the condition. (Nothing here rests on what the sum does past
2^32; that is BranchTargetIsTwelvePastPlusTheOffset.) The signed offset, the untested condition and the bias 12 are
the spec's resolutions of conflicts C1, C3 and C6 (log entry 9). The worked example 0xEBFFFFFF is marked derived in
R121. Log entries it rests on: 9 (resolved conflicts: C1, C3, C5, C6). Rests on 41_branch.md R120, 41_branch.md R121,
41_branch.md R122, 90_conflicts.md C1, 90_conflicts.md C3, 90_conflicts.md C6, notes/assumptions/9.md. -/
def Obligations.BranchWordsDecodeAndResolve : Prop :=
  (∀ w pc : Word, (w.extractLsb' 24 4 = 0b1010#4 ∨ w.extractLsb' 24 4 = 0b1011#4) →
      let offset := (w.extractLsb' 0 24 ++ 0b00#2).signExtend 32
      decodeOne w pc =
        (⟨w.extractLsb' 28 4, .branch (w.getLsbD 24) (w.extractLsb' 0 24) offset⟩, some (branchTarget pc offset)) ∧
      (w.getLsbD 24 = true ↔ w.extractLsb' 24 4 = 0b1011#4)) ∧
    decodeOne 0xEA000000#32 0x100#32 = (⟨14#4, .branch false 0#24 0#32⟩, some 0x10C#32) ∧
    decodeOne 0xEBFFFFFF#32 0x200#32 = (⟨14#4, .branch true 0xFFFFFF#24 0xFFFFFFFC#32⟩, some 0x208#32) ∧
    (∀ pc : Word, pc.toNat + 12 < 2 ^ 32 →
      (decodeOne 0xEAFFFFFD#32 pc).2 = some pc ∧
      ∃ t, (decodeOne 0xEA000000#32 pc).2 = some t ∧ t.toNat = pc.toNat + 12) ∧
    branchByteOffset 0x800000#24 = 0xFE000000#32

/-- A branch goes to the position plus 12 plus four times the signed field, modulo 2^32, and stays aligned. That imm24
is signed is the spec's resolution of conflict C1 and that the bias is 12 of C6 (log entry 9). The modulus is its
decision D2 (log entry 8); alignment is marked derived in R43, and the example in R126. Log entries it rests on: 8
(32-bit positions and sums, D2 and D13); 9 (resolved conflicts: C1, C6). Rests on 41_branch.md R122, 41_branch.md
R126, 00_scope.md R6, 20_memory.md R43, 30_encoding.md R79, 90_conflicts.md C1, 90_conflicts.md C6,
92_eei_decisions.md D2, notes/assumptions/8.md, notes/assumptions/9.md. -/
def Obligations.BranchTargetIsTwelvePastPlusTheOffset : Prop :=
  (∀ (pc : Word) (imm24 : BitVec 24),
      branchTarget pc (branchByteOffset imm24) = pc + 4#32 + branchByteOffset imm24 + 8#32 ∧
      ((branchTarget pc (branchByteOffset imm24)).toNat : Int) = ((pc.toNat : Int) + 12 + 4 * imm24.toInt) % 2 ^ 32 ∧
      (pc.toNat % 4 = 0 → (branchTarget pc (branchByteOffset imm24)).toNat % 4 = 0)) ∧
    (decodeOne 0xEA800000#32 0x100#32).2 = some 0xFE00010C#32

/-- The resolver's answer to a Branch word depends only on its offset field and the position. That the condition is
not tested is the spec's resolution of conflict C3, and the bias 12 in the example that of C6 (log entry 9). Log
entries it rests on: 9 (resolved conflicts: C3, C6). Rests on 41_branch.md R124, 41_branch.md R125, 90_conflicts.md
C3, 90_conflicts.md C6, notes/assumptions/9.md. -/
def Obligations.BranchAnswerSameForEveryConditionAndLink : Prop :=
  (∀ w w' pc : Word, w.extractLsb' 25 3 = 0b101#3 → w'.extractLsb' 25 3 = 0b101#3 →
      w.extractLsb' 0 24 = w'.extractLsb' 0 24 →
      (decodeOne w pc).2 = (decodeOne w' pc).2 ∧ (decodeOne w pc).2.isSome = true) ∧
    (decodeOne 0x0A000005#32 0x100#32).2 = some 0x120#32

/-- Re-encoding a Branch record's link and byte offset reproduces bits 25-0 of the word. That the re-encoder supplies
bit 25 is the spec's decision D20. Log entries it rests on: 10 (names, re-tags and untreated cases: D20). Rests on
41_branch.md R123, 95_test_vectors.md S2, notes/assumptions/10.md. -/
def Obligations.BranchReencodesToBits25To0 : Prop :=
  ∀ (w pc : Word) link imm24 byteOffset, (decodeOne w pc).1.body = .branch link imm24 byteOffset →
    (encodeBranch link byteOffset).extractLsb' 0 26 = w.extractLsb' 0 26

/-- A word is BX exactly with the pattern in bits 27-4; its record has the register of bits 3-0, and the answer is
None. That the register is bits 3-0 is the spec's resolution of conflict C2 (log entry 9). The near misses and the
worked example are marked derived in R140. Log entries it rests on: 9 (resolved conflicts: C2). Rests on
42_branch_exchange.md R140, 30_encoding.md R69, 30_encoding.md R72, 90_conflicts.md C2, notes/assumptions/9.md. -/
def Obligations.BranchExchangeWordsGiveRegisterAndNoTarget : Prop :=
  (∀ w pc : Word, w &&& 0x0FFFFFF0#32 = 0x012FFF10#32 →
      decodeOne w pc = (⟨w.extractLsb' 28 4, .branchExchange (w.extractLsb' 0 4)⟩, none)) ∧
    (∀ w : Word, w &&& 0x0FFFFFF0#32 ≠ 0x012FFF10#32 → classify w ≠ .branchExchange) ∧
    (∀ (w : Word) (k : Nat), 4 ≤ k → k ≤ 27 → w &&& 0x0FFFFFF0#32 = 0x012FFF10#32 →
      classify (w ^^^ (1#32 <<< k)) ≠ .branchExchange) ∧
    (∀ pc : Word, decodeOne 0xE12FFF1E#32 pc = (⟨14#4, .branchExchange 14#4⟩, none)) ∧
    (decodeRecord 0x012FFF1F#32 = ⟨0#4, .branchExchange 15#4⟩) ∧
    (decodeRecord 0xE12FFF3E#32).body =
      .dataProcessing false 9#4 .statusRegisterTransfer false 15#4 15#4 (.reg 14#4 .lsr (.regAmount 15#4)) ∧
    (decodeRecord 0xE13FFF1E#32).body =
      .dataProcessing false 9#4 .teq true 15#4 15#4 (.reg 14#4 .lsl (.regAmount 15#4)) ∧
    (decodeRecord 0xE12FFF0E#32).body =
      .dataProcessing false 9#4 .statusRegisterTransfer false 15#4 15#4 (.reg 14#4 .lsl (.immAmount 30#5))

/-- AND, EOR, ORR, MOV, BIC and MVN words: the record of R150 with the operation, and None. The six operation names
are the spec's decision D16, that LSR by 0 is kept is D18, and that Rd = 15 is like any other is D26 (log entry 10).
Log entries it rests on: 10 (names, re-tags and untreated cases: D16, D18, D26). Rests on 43_data_processing.md R160,
R161, R173 to R176, 43_data_processing.md R150, 43_data_processing.md R155, 30_encoding.md R75, 92_eei_decisions.md
D16, 92_eei_decisions.md D18, 92_eei_decisions.md D26, notes/assumptions/10.md. -/
def Obligations.LogicalAndMoveWordsGiveTheirRecord : Prop :=
  (∀ w pc : Word, classify w = .dataProcessing →
      (w.extractLsb' 21 4 = 0b0000#4 → decodeOne w pc = (dpWordRecord w 0b0000#4 .and, none)) ∧
      (w.extractLsb' 21 4 = 0b0001#4 → decodeOne w pc = (dpWordRecord w 0b0001#4 .eor, none)) ∧
      (w.extractLsb' 21 4 = 0b1100#4 → decodeOne w pc = (dpWordRecord w 0b1100#4 .orr, none)) ∧
      (w.extractLsb' 21 4 = 0b1101#4 → decodeOne w pc = (dpWordRecord w 0b1101#4 .mov, none)) ∧
      (w.extractLsb' 21 4 = 0b1110#4 → decodeOne w pc = (dpWordRecord w 0b1110#4 .bic, none)) ∧
      (w.extractLsb' 21 4 = 0b1111#4 → decodeOne w pc = (dpWordRecord w 0b1111#4 .mvn, none))) ∧
    decodeRecord 0xE20100FF#32 = ⟨14#4, .dataProcessing true 0#4 .and false 1#4 0#4 (.imm 0#4 0#5 0xFF#8 0xFF#32)⟩ ∧
    decodeRecord 0xE0232004#32 = ⟨14#4, .dataProcessing false 1#4 .eor false 3#4 2#4 (.reg 4#4 .lsl (.immAmount 0#5))⟩ ∧
    decodeRecord 0xE3833102#32 = ⟨14#4, .dataProcessing true 12#4 .orr false 3#4 3#4 (.imm 1#4 2#5 0x02#8 0x80000000#32)⟩ ∧
    decodeRecord 0xE3A01101#32 = ⟨14#4, .dataProcessing true 13#4 .mov false 0#4 1#4 (.imm 1#4 2#5 0x01#8 0x40000000#32)⟩ ∧
    decodeRecord 0xE1A0F00E#32 = ⟨14#4, .dataProcessing false 13#4 .mov false 0#4 15#4 (.reg 14#4 .lsl (.immAmount 0#5))⟩ ∧
    decodeRecord 0xE1A03064#32 = ⟨14#4, .dataProcessing false 13#4 .mov false 0#4 3#4 (.reg 4#4 .rrx (.immAmount 0#5))⟩ ∧
    decodeRecord 0x11A03074#32 = ⟨1#4, .dataProcessing false 13#4 .mov false 0#4 3#4 (.reg 4#4 .ror (.regAmount 0#4))⟩ ∧
    decodeRecord 0xE1A00000#32 = ⟨14#4, .dataProcessing false 13#4 .mov false 0#4 0#4 (.reg 0#4 .lsl (.immAmount 0#5))⟩ ∧
    decodeRecord 0xE3C004FF#32 = ⟨14#4, .dataProcessing true 14#4 .bic false 0#4 0#4 (.imm 4#4 8#5 0xFF#8 0xFF000000#32)⟩ ∧
    decodeRecord 0xE3E00000#32 = ⟨14#4, .dataProcessing true 15#4 .mvn false 0#4 0#4 (.imm 0#4 0#5 0#8 0#32)⟩ ∧
    decodeRecord 0xE1E01022#32 = ⟨14#4, .dataProcessing false 15#4 .mvn false 0#4 1#4 (.reg 2#4 .lsr (.immAmount 0#5))⟩

/-- SUB, RSB, ADD, ADC, SBC and RSC words: the record of R150 with the operation, and None. The six operation names
are the spec's decision D16, that a shift by an immediate 0 other than rotate-right keeps its type is D18, and that Rd
= 15 is like any other is D26 (log entry 10). Log entries it rests on: 10 (names, re-tags and untreated cases: D16,
D18, D26). Rests on 43_data_processing.md R162 to R167, 43_data_processing.md R150, 43_data_processing.md R155,
30_encoding.md R75, 92_eei_decisions.md D16, notes/assumptions/10.md. -/
def Obligations.ArithmeticWordsGiveTheirRecord : Prop :=
  (∀ w pc : Word, classify w = .dataProcessing →
      (w.extractLsb' 21 4 = 0b0010#4 → decodeOne w pc = (dpWordRecord w 0b0010#4 .sub, none)) ∧
      (w.extractLsb' 21 4 = 0b0011#4 → decodeOne w pc = (dpWordRecord w 0b0011#4 .rsb, none)) ∧
      (w.extractLsb' 21 4 = 0b0100#4 → decodeOne w pc = (dpWordRecord w 0b0100#4 .add, none)) ∧
      (w.extractLsb' 21 4 = 0b0101#4 → decodeOne w pc = (dpWordRecord w 0b0101#4 .adc, none)) ∧
      (w.extractLsb' 21 4 = 0b0110#4 → decodeOne w pc = (dpWordRecord w 0b0110#4 .sbc, none)) ∧
      (w.extractLsb' 21 4 = 0b0111#4 → decodeOne w pc = (dpWordRecord w 0b0111#4 .rsc, none))) ∧
    decodeRecord 0xE2565001#32 = ⟨14#4, .dataProcessing true 2#4 .sub true 6#4 5#4 (.imm 0#4 0#5 1#8 1#32)⟩ ∧
    decodeRecord 0xE2600000#32 = ⟨14#4, .dataProcessing true 3#4 .rsb false 0#4 0#4 (.imm 0#4 0#5 0#8 0#32)⟩ ∧
    decodeRecord 0xE0902181#32 = ⟨14#4, .dataProcessing false 4#4 .add true 0#4 2#4 (.reg 1#4 .lsl (.immAmount 3#5))⟩ ∧
    decodeRecord 0xE0802001#32 = ⟨14#4, .dataProcessing false 4#4 .add false 0#4 2#4 (.reg 1#4 .lsl (.immAmount 0#5))⟩ ∧
    decodeRecord 0xE0A11352#32 = ⟨14#4, .dataProcessing false 5#4 .adc false 1#4 1#4 (.reg 2#4 .asr (.regAmount 3#4))⟩ ∧
    decodeRecord 0xE0C54FE6#32 = ⟨14#4, .dataProcessing false 6#4 .sbc false 5#4 4#4 (.reg 6#4 .ror (.immAmount 31#5))⟩ ∧
    decodeRecord 0xE2E87FFF#32 = ⟨14#4, .dataProcessing true 7#4 .rsc false 8#4 7#4 (.imm 15#4 30#5 0xFF#8 0x3FC#32)⟩

/-- TST, TEQ, CMP, CMN and status-register-transfer words: the record of R150, and None. The names TST, CMP and CMN
are the spec's decision D16, that they stay with S = 0 is D17, that a shift by an immediate 0 other than rotate-right
keeps its type is D18, and that Rd = 15 is like any other is D26 (log entry 10). That dp_psr_xfer_o is a port of its
own is D5 (log entry 11). Log entries it rests on: 10 (names, re-tags and untreated cases: D16 to D18, D26); 11 (port
numbers: D5). Rests on 43_data_processing.md R168 to R172, 43_data_processing.md R150, 43_data_processing.md R155,
30_encoding.md R75, 30_encoding.md R76, 92_eei_decisions.md D5, 92_eei_decisions.md D16, 92_eei_decisions.md D17,
notes/assumptions/10.md, notes/assumptions/11.md. -/
def Obligations.CompareAndStatusTransferWordsGiveTheirRecord : Prop :=
  (∀ w pc : Word, classify w = .dataProcessing →
      (w.extractLsb' 21 4 = 0b1000#4 → decodeOne w pc = (dpWordRecord w 0b1000#4 .tst, none)) ∧
      (w.extractLsb' 21 4 = 0b1001#4 → w.getLsbD 20 = true → decodeOne w pc = (dpWordRecord w 0b1001#4 .teq, none)) ∧
      (w.extractLsb' 21 4 = 0b1001#4 → w.getLsbD 20 = false → decodeOne w pc = (dpWordRecord w 0b1001#4 .statusRegisterTransfer, none)) ∧
      (w.extractLsb' 21 4 = 0b1010#4 → decodeOne w pc = (dpWordRecord w 0b1010#4 .cmp, none)) ∧
      (w.extractLsb' 21 4 = 0b1011#4 → decodeOne w pc = (dpWordRecord w 0b1011#4 .cmn, none))) ∧
    (∀ w : Word, w.extractLsb' 4 24 = 0b000100101111111111110001#24 →
      w.extractLsb' 21 4 = 0b1001#4 ∧ w.getLsbD 20 = false ∧ classify w = .branchExchange) ∧
    decodeRecord 0xE3100001#32 = ⟨14#4, .dataProcessing true 8#4 .tst true 0#4 0#4 (.imm 0#4 0#5 1#8 1#32)⟩ ∧
    decodeRecord 0xE10F0000#32 = ⟨14#4, .dataProcessing false 8#4 .tst false 15#4 0#4 (.reg 0#4 .lsl (.immAmount 0#5))⟩ ∧
    decodeRecord 0xE1310002#32 = ⟨14#4, .dataProcessing false 9#4 .teq true 1#4 0#4 (.reg 2#4 .lsl (.immAmount 0#5))⟩ ∧
    decodeRecord 0xE13FFF1E#32 = ⟨14#4, .dataProcessing false 9#4 .teq true 15#4 15#4 (.reg 14#4 .lsl (.regAmount 15#4))⟩ ∧
    decodeRecord 0xE329F01F#32 = ⟨14#4, .dataProcessing true 9#4 .statusRegisterTransfer false 9#4 15#4 (.imm 0#4 0#5 0x1F#8 0x1F#32)⟩ ∧
    decodeRecord 0xE129F000#32 = ⟨14#4, .dataProcessing false 9#4 .statusRegisterTransfer false 9#4 15#4 (.reg 0#4 .lsl (.immAmount 0#5))⟩ ∧
    decodeRecord 0xE12FFF3E#32 = ⟨14#4, .dataProcessing false 9#4 .statusRegisterTransfer false 15#4 15#4 (.reg 14#4 .lsr (.regAmount 15#4))⟩ ∧
    decodeRecord 0xE320F000#32 = ⟨14#4, .dataProcessing true 9#4 .statusRegisterTransfer false 0#4 15#4 (.imm 0#4 0#5 0#8 0#32)⟩ ∧
    (∀ w pc : Word, classify w = .dataProcessing →
      ((blockPorts w pc).dp_psr_xfer_o = true ↔ w.extractLsb' 21 4 = 0b1001#4 ∧ w.getLsbD 20 = false)) ∧
    (∀ pc, (blockPorts 0xE329F01F#32 pc).dp_psr_xfer_o = true ∧ (blockPorts 0xE1310002#32 pc).dp_psr_xfer_o = false) ∧
    decodeRecord 0xE1500001#32 = ⟨14#4, .dataProcessing false 10#4 .cmp true 0#4 0#4 (.reg 1#4 .lsl (.immAmount 0#5))⟩ ∧
    decodeRecord 0xE3720004#32 = ⟨14#4, .dataProcessing true 11#4 .cmn true 2#4 0#4 (.imm 0#4 0#5 4#8 4#32)⟩ ∧
    decodeRecord 0xE3620004#32 = ⟨14#4, .dataProcessing true 11#4 .cmn false 2#4 0#4 (.imm 0#4 0#5 4#8 4#32)⟩

/-- Undefined and Unclassified words: the condition alone, and None; neither traps. The worked examples are marked
derived in R200 and R201, and the port that carries the fault is the spec's decision D27 (log entry 7). Log entries it
rests on: 7 (the tag and its fault, D27). Rests on 44_undefined_unclassified.md R200, 44_undefined_unclassified.md
R201, 60_exceptions.md R210, 60_exceptions.md R211, notes/assumptions/7.md. -/
def Obligations.UndefinedAndUnclassifiedWordsCarryOnlyTheCondition : Prop :=
  (∀ w pc : Word,
      (w.extractLsb' 25 3 = 0b011#3 ∧ w.getLsbD 4 = true →
        decodeOne w pc = (⟨w.extractLsb' 28 4, .undefined⟩, none)) ∧
      (isBranch w = false ∧ isBX w = false ∧ isDP w = false ∧ isUndef w = false →
        decodeOne w pc = (⟨w.extractLsb' 28 4, .unclassified⟩, none))) ∧
    (∀ w pc : Word, classify w = .undefined ∨ classify w = .unclassified → (blockPorts w pc).fault_o = false) ∧
    (∀ w ∈ [0x06000010#32, 0xE7F000F0#32], (decodeRecord w).body = .undefined) ∧
    (∀ w ∈ [0xE0000090#32, 0xE00000B0#32, 0xE00000D0#32, 0xE00000F0#32, 0xE0000291#32, 0xFFFFFFFF#32, 0xE5910000#32,
        0xE8BD8000#32, 0xE1D000B0#32, 0xEF000000#32, 0xE7910002#32], (decodeRecord w).body = .unclassified)

/-- Every record the block decodes satisfies the invariants of R101. (R101 marks them as derived; the sign extension
is the spec's resolution of conflict C1, log entry 9, the names of the operations and the re-tags its decisions D16 to
D18, log entry 10.) Log entries it rests on: 9 (resolved conflicts: C1); 10 (names, re-tags and untreated cases: D16
to D18). Rests on 40_decode_pipeline.md R101, 30_encoding.md R75 to R79, 90_conflicts.md C1, notes/assumptions/9.md,
notes/assumptions/10.md. -/
def Obligations.RecordsOfTheBlockAreConsistent : Prop :=
  ∀ w pc : Word, Decoded.Sound (decodeOne w pc).1

/-- The resolver answers a target for every Branch record and None for every other. That a Branch record resolves
whatever its condition is the spec's resolution of conflict C3 (log entry 9), and that Rd = 15 is like any other its
decision D26 (log entry 10). Log entries it rests on: 9 (resolved conflicts: C3); 10 (names, re-tags and untreated
cases: D26). Rests on 40_decode_pipeline.md R104, 41_branch.md R125, 43_data_processing.md R155, 90_conflicts.md C3,
92_eei_decisions.md D26, notes/assumptions/9.md, notes/assumptions/10.md. -/
def Obligations.OnlyBranchRecordsResolve : Prop :=
  (∀ (cond : Cond) (pc : Word),
      (∀ link imm24 offset, resolve ⟨cond, .branch link imm24 offset⟩ pc = some (branchTarget pc offset)) ∧
      (∀ rm, resolve ⟨cond, .branchExchange rm⟩ pc = none) ∧
      (∀ i opcode op s rn rd op2, resolve ⟨cond, .dataProcessing i opcode op s rn rd op2⟩ pc = none) ∧
      resolve ⟨cond, .undefined⟩ pc = none ∧ resolve ⟨cond, .unclassified⟩ pc = none) ∧
    (∀ w pc : Word, (decodeOne w pc).2.isSome = true ↔ classify w = .branch)

/-- fault_o is 0 for every input and no step faults. (R106 marks the unreachability as derived; the form of the tag is
decision D27 and log entry 7.) Log entries it rests on: 7 (the tag and its fault, D27); 12 (refusals, D8 to D10); 15
(a meaning is what a walk step does with the word). Rests on 40_decode_pipeline.md R106, 60_exceptions.md R210,
60_exceptions.md R211, notes/assumptions/7.md, notes/assumptions/12.md, notes/assumptions/15.md. -/
def Obligations.DefensiveFaultIsNeverRaised : Prop :=
  (∀ w pc : Word, (blockPorts w pc).fault_o = false) ∧
    (∀ (s : State) (f : Fault), step s ≠ .fault f) ∧
    (∀ (i : Instr) (s : State) (f : Fault), exec i s ≠ .fault f) ∧
    (∀ (rec : Decoded) (pc : Word) (tag : Bool),
      resolveTagged tag rec pc = .error .inconsistentPcChangeTag ↔ ¬(tag = true ↔ variantOf rec = .branch))

/-- Every output port carries the word's field wherever R22 calls it valid. Nothing is said of a port that is not
valid, which carries a free value (log entry 6). The ports and their numbers are the spec's decisions D3 to D6 (log
entry 11). The signed offset, the register of BX and the untested condition are its resolutions of conflicts C1, C2
and C3 (log entry 9). That dp_psr_xfer_o is 1 for no other opcode is its decision D17, and that LSR and ASR by 0 keep
bits 6-5 in dp_shift_type_o is D18 (log entry 10); the fault port is D27 (log entry 7), and the modulus inside
branch_target D2 (log entry 8). Log entries it rests on: 6 (free ports); 7 (the tag and its fault, D27); 8 (32-bit
positions and sums, D2 and D13); 9 (resolved conflicts: C1 to C3); 10 (names, re-tags and untreated cases: D17, D18);
11 (port numbers: D3 to D6). Rests on 10_state.md R22 to R25, 90_conflicts.md C1, 90_conflicts.md C2, 90_conflicts.md
C3, notes/assumptions/6.md, notes/assumptions/7.md, notes/assumptions/8.md, notes/assumptions/9.md,
notes/assumptions/10.md, notes/assumptions/11.md. -/
def Obligations.PortsCarryTheRecordsFields : Prop :=
  ∀ w pc : Word,
    let p := blockPorts w pc
    (classify w = .branch → p.variant_o = 0#3) ∧ (classify w = .branchExchange → p.variant_o = 1#3) ∧
    (classify w = .dataProcessing → p.variant_o = 2#3) ∧ (classify w = .undefined → p.variant_o = 3#3) ∧
    (classify w = .unclassified → p.variant_o = 4#3) ∧ p.fault_o = false ∧ p.cond_o = w.extractLsb' 28 4 ∧
    (p.pc_change_valid_o = true ↔ classify w = .branch) ∧
    (classify w = .branch →
      p.b_link_o = w.getLsbD 24 ∧ p.b_imm24_o = w.extractLsb' 0 24 ∧
      p.b_offset_o = (w.extractLsb' 0 24 ++ 0b00#2).signExtend 32 ∧ p.new_pc_o = branchTarget pc p.b_offset_o) ∧
    (classify w = .branchExchange → p.bx_rm_o = w.extractLsb' 0 4) ∧
    (classify w = .dataProcessing →
      p.dp_i_o = w.getLsbD 25 ∧ p.dp_opcode_o = w.extractLsb' 21 4 ∧ p.dp_s_o = w.getLsbD 20 ∧
      p.dp_rn_o = w.extractLsb' 16 4 ∧ p.dp_rd_o = w.extractLsb' 12 4 ∧
      (p.dp_psr_xfer_o = true ↔ w.extractLsb' 21 4 = 0b1001#4 ∧ w.getLsbD 20 = false) ∧
      (w.getLsbD 25 = true →
        p.dp_rot_o = w.extractLsb' 8 4 ∧ p.dp_rot_amount_o.toNat = 2 * (w.extractLsb' 8 4).toNat ∧
        p.dp_imm8_o = w.extractLsb' 0 8 ∧ p.dp_imm_value_o = immValue (w.extractLsb' 8 4) (w.extractLsb' 0 8)) ∧
      (w.getLsbD 25 = false →
        p.dp_rm_o = w.extractLsb' 0 4 ∧ p.dp_shift_by_reg_o = w.getLsbD 4 ∧
        p.dp_shift_type_o =
          (if w.extractLsb' 5 2 = 0b11#2 ∧ w.getLsbD 4 = false ∧ w.extractLsb' 7 5 = 0#5 then 4#3
           else (w.extractLsb' 5 2).setWidth 3) ∧
        (w.getLsbD 4 = false → p.dp_shift_imm_o = w.extractLsb' 7 5) ∧
        (w.getLsbD 4 = true → p.dp_rs_o = w.extractLsb' 8 4)))

/-- The sixteen condition values have the fifteen names and mnemonics of R74, 14 and 15 both being "always". The names
of 3 to 13 and every mnemonic are the spec's decision D15, and of the two mnemonics CS (HS) and CC (LO) the model
takes the first (log entry 10). Log entries it rests on: 10 (names, re-tags and untreated cases: D15). Rests on
30_encoding.md R74, 40_decode_pipeline.md R102, 92_eei_decisions.md D15, notes/assumptions/10.md. -/
def Obligations.ConditionNamesAreFifteen : Prop :=
  condName 0#4 = .equal ∧ condMnemonic (condName 0#4) = "EQ" ∧
    condName 1#4 = .notEqual ∧ condMnemonic (condName 1#4) = "NE" ∧
    condName 2#4 = .carrySet ∧ condMnemonic (condName 2#4) = "CS" ∧
    condName 3#4 = .carryClear ∧ condMnemonic (condName 3#4) = "CC" ∧
    condName 4#4 = .minus ∧ condMnemonic (condName 4#4) = "MI" ∧
    condName 5#4 = .plus ∧ condMnemonic (condName 5#4) = "PL" ∧
    condName 6#4 = .overflowSet ∧ condMnemonic (condName 6#4) = "VS" ∧
    condName 7#4 = .overflowClear ∧ condMnemonic (condName 7#4) = "VC" ∧
    condName 8#4 = .unsignedHigher ∧ condMnemonic (condName 8#4) = "HI" ∧
    condName 9#4 = .unsignedLowerOrSame ∧ condMnemonic (condName 9#4) = "LS" ∧
    condName 10#4 = .signedGreaterOrEqual ∧ condMnemonic (condName 10#4) = "GE" ∧
    condName 11#4 = .signedLessThan ∧ condMnemonic (condName 11#4) = "LT" ∧
    condName 12#4 = .signedGreaterThan ∧ condMnemonic (condName 12#4) = "GT" ∧
    condName 13#4 = .signedLessOrEqual ∧ condMnemonic (condName 13#4) = "LE" ∧
    condName 14#4 = .always ∧ condMnemonic (condName 14#4) = "AL" ∧
    condName 15#4 = .always ∧ condMnemonic (condName 15#4) = "AL" ∧
    (∀ c : Cond, condName c = .always ↔ c = 14#4 ∨ c = 15#4) ∧
    (∀ c d : Cond, c ≠ 15#4 → d ≠ 15#4 → condName c = condName d → c = d) ∧
    (∀ n : CondName, ∃ c : Cond, condName c = n)

/-- The word at an offset has the byte at that offset in bits 7-0 and the byte three further in bits 31-24. The byte
order is R41's; the list form of the image (log entry 3) and exec as what a step does with the word (log entry 15) are
the model's. Log entries it rests on: 3 (the image as a canonical list); 15 (a meaning is what a walk step does with
the word). Rests on 20_memory.md R41, 70_reset_and_hazards.md R242, notes/assumptions/3.md, notes/assumptions/15.md.
-/
def Obligations.WordReadIsLittleEndian : Prop :=
  (∀ (m : Memory) (off : Nat),
      let w := Memory.readWord m off
      w.extractLsb' 0 8 = Memory.read m off ∧ w.extractLsb' 8 8 = Memory.read m (off + 1) ∧
      w.extractLsb' 16 8 = Memory.read m (off + 2) ∧ w.extractLsb' 24 8 = Memory.read m (off + 3) ∧
      w.toNat = (Memory.read m off).toNat + 2 ^ 8 * (Memory.read m (off + 1)).toNat
        + 2 ^ 16 * (Memory.read m (off + 2)).toNat + 2 ^ 24 * (Memory.read m (off + 3)).toNat ∧
      w.extractLsb' 28 4 = (Memory.read m (off + 3)).extractLsb' 4 4) ∧
    (∀ s t : State, step s = .next t → step s = exec (decodeWord (Memory.readWord s.image s.pc.toNat)) s) ∧
    Memory.readWord (Memory.load [] 0x100 [0x00#8, 0x00#8, 0x00#8, 0xEA#8]) 0x100 = 0xEA000000#32

/-- A walk starts with the image it is given, in canonical form, at the position it is given. (That INITIAL_PC and the
image are given from outside is R6, log entries 1 and 2; that the mode is ARM is the spec's decision D12, log entry 4;
the list form and its reading of unlisted offsets are log entry 3, the empty list of outputs log entry 5.) Log entries
it rests on: 1 (INITIAL_PC is open); 2 (the image is loaded from outside); 3 (the image as a canonical list); 4 (ARM
mode at the start, D12); 5 (the outputs kept in the state). Rests on 20_memory.md R40, 70_reset_and_hazards.md R241,
00_scope.md R6, notes/assumptions/1.md, notes/assumptions/2.md, notes/assumptions/3.md, notes/assumptions/4.md,
notes/assumptions/5.md. -/
def Obligations.BootImageHoldsItsBytes : Prop :=
  ∀ (bytes : List Byte) (initialPc : Word),
    let s := bootState bytes initialPc
    (∀ off (h : off < bytes.length), Memory.read s.image off = bytes[off]) ∧ s.imageLen = bytes.length ∧
    Memory.wf s.image = true ∧ (∀ c ∈ s.image, c.1 < s.imageLen) ∧
    s.pc = initialPc ∧ s.inThumbMode = false ∧ s.emitted = []

/-- Two images in canonical form that read alike everywhere are the same data. (The list form is the model's choice,
log entry 3.) Log entries it rests on: 3 (the image as a canonical list). Rests on 20_memory.md R40, 20_memory.md R45,
notes/assumptions/3.md. -/
def Obligations.CanonicalImagesWithEqualBytesAreEqual : Prop :=
  ∀ m m' : Memory, Memory.wf m = true → Memory.wf m' = true →
    (∀ off, Memory.read m off = Memory.read m' off) → m = m'

/-- B and BL go on from every state: the record, the target, and nothing else. (The modulus of the sum is decision D2,
log entry 8; the signed offset, the untested condition and the bias 12 are the spec's resolutions of conflicts C1, C3
and C6, log entry 9; that the state keeps the outputs is log entry 5.) Log entries it rests on: 5 (the outputs kept in
the state); 8 (32-bit positions and sums, D2 and D13); 9 (resolved conflicts: C1, C3, C6); 15 (a meaning is what a
walk step does with the word). Rests on 41_branch.md R120, 41_branch.md R121, 41_branch.md R122, 10_state.md R30,
90_conflicts.md C1, 90_conflicts.md C3, 90_conflicts.md C6, notes/assumptions/5.md, notes/assumptions/8.md,
notes/assumptions/9.md, notes/assumptions/15.md. -/
def Obligations.BranchInstructionsComplete : Prop :=
  ∀ (cond : Cond) (imm24 : BitVec 24) (s : State),
    let offset := (imm24 ++ 0b00#2).signExtend 32
    let target := s.pc + 12#32 + offset
    exec (.b cond imm24) s = .next (afterBranch s ⟨cond, .branch false imm24 offset⟩ target) ∧
    exec (.bl cond imm24) s = .next (afterBranch s ⟨cond, .branch true imm24 offset⟩ target)

/-- BX, UNDEFINED and UNCLASSIFIED go on from every state with their record and None. (The modulus of the sum is
decision D13, log entry 8; that the state keeps the outputs is log entry 5.) Log entries it rests on: 5 (the outputs
kept in the state); 8 (32-bit positions and sums, D2 and D13); 13 (undecoded bits as syntax); 15 (a meaning is what a
walk step does with the word). Rests on 42_branch_exchange.md R140, 42_branch_exchange.md R141,
44_undefined_unclassified.md R200, 44_undefined_unclassified.md R201, 10_state.md R30, notes/assumptions/5.md,
notes/assumptions/8.md, notes/assumptions/13.md, notes/assumptions/15.md. -/
def Obligations.BranchExchangeAndFallbackInstructionsComplete : Prop :=
  ∀ (cond : Cond) (rm : RegIdx) (hi : BitVec 20) (lo : BitVec 4) (w : Word) (s : State),
    exec (.bx cond rm) s = .next (afterUnresolved s ⟨cond, .branchExchange rm⟩) ∧
    exec (.undefined cond hi lo) s = .next (afterUnresolved s ⟨cond, .undefined⟩) ∧
    exec (.unclassified w) s = .next (afterUnresolved s ⟨w.extractLsb' 28 4, .unclassified⟩)

/-- All seventeen operations in the immediate (DP-I) form go on from every state with their record and None. (The
modulus of the sum is decision D13, log entry 8; the operation names and the two re-tags are decisions D16 to D18, log
entry 10; that the state keeps the outputs is log entry 5.) Log entries it rests on: 5 (the outputs kept in the
state); 8 (32-bit positions and sums, D2 and D13); 10 (names, re-tags and untreated cases: D16 to D18, D26); 15 (a
meaning is what a walk step does with the word). Rests on 43_data_processing.md R150, 43_data_processing.md R151,
43_data_processing.md R155, 43_data_processing.md R160 to R176, 10_state.md R30, notes/assumptions/5.md,
notes/assumptions/8.md, notes/assumptions/10.md, notes/assumptions/15.md. -/
def Obligations.ImmediateFormsComplete : Prop :=
  ∀ (c : Cond) (sf : Bool) (rn rd : RegIdx) (o : ImmOperand) (s : State),
    let op2 : Operand2 := .imm o.rot (o.rot ++ 0#1) o.imm8 ((o.imm8.setWidth 32).rotateRight (2 * o.rot.toNat))
    exec (.andI c sf rn rd o) s = .next (afterUnresolved s ⟨c, .dataProcessing true 0b0000#4 .and sf rn rd op2⟩) ∧
    exec (.eorI c sf rn rd o) s = .next (afterUnresolved s ⟨c, .dataProcessing true 0b0001#4 .eor sf rn rd op2⟩) ∧
    exec (.subI c sf rn rd o) s = .next (afterUnresolved s ⟨c, .dataProcessing true 0b0010#4 .sub sf rn rd op2⟩) ∧
    exec (.rsbI c sf rn rd o) s = .next (afterUnresolved s ⟨c, .dataProcessing true 0b0011#4 .rsb sf rn rd op2⟩) ∧
    exec (.addI c sf rn rd o) s = .next (afterUnresolved s ⟨c, .dataProcessing true 0b0100#4 .add sf rn rd op2⟩) ∧
    exec (.adcI c sf rn rd o) s = .next (afterUnresolved s ⟨c, .dataProcessing true 0b0101#4 .adc sf rn rd op2⟩) ∧
    exec (.sbcI c sf rn rd o) s = .next (afterUnresolved s ⟨c, .dataProcessing true 0b0110#4 .sbc sf rn rd op2⟩) ∧
    exec (.rscI c sf rn rd o) s = .next (afterUnresolved s ⟨c, .dataProcessing true 0b0111#4 .rsc sf rn rd op2⟩) ∧
    exec (.tstI c sf rn rd o) s = .next (afterUnresolved s ⟨c, .dataProcessing true 0b1000#4 .tst sf rn rd op2⟩) ∧
    exec (.teqI c rn rd o) s = .next (afterUnresolved s ⟨c, .dataProcessing true 0b1001#4 .teq true rn rd op2⟩) ∧
    exec (.psrxI c rn rd o) s = .next (afterUnresolved s ⟨c, .dataProcessing true 0b1001#4 .statusRegisterTransfer false rn rd op2⟩) ∧
    exec (.cmpI c sf rn rd o) s = .next (afterUnresolved s ⟨c, .dataProcessing true 0b1010#4 .cmp sf rn rd op2⟩) ∧
    exec (.cmnI c sf rn rd o) s = .next (afterUnresolved s ⟨c, .dataProcessing true 0b1011#4 .cmn sf rn rd op2⟩) ∧
    exec (.orrI c sf rn rd o) s = .next (afterUnresolved s ⟨c, .dataProcessing true 0b1100#4 .orr sf rn rd op2⟩) ∧
    exec (.movI c sf rn rd o) s = .next (afterUnresolved s ⟨c, .dataProcessing true 0b1101#4 .mov sf rn rd op2⟩) ∧
    exec (.bicI c sf rn rd o) s = .next (afterUnresolved s ⟨c, .dataProcessing true 0b1110#4 .bic sf rn rd op2⟩) ∧
    exec (.mvnI c sf rn rd o) s = .next (afterUnresolved s ⟨c, .dataProcessing true 0b1111#4 .mvn sf rn rd op2⟩)

/-- All seventeen operations in the shift-by-immediate (DP-RI) form go on from every state with their record and None.
(The modulus of the sum is decision D13, log entry 8; the operation names and the two re-tags are decisions D16 to
D18, log entry 10; that the state keeps the outputs is log entry 5.) Log entries it rests on: 5 (the outputs kept in
the state); 8 (32-bit positions and sums, D2 and D13); 10 (names, re-tags and untreated cases: D16 to D18, D26); 15 (a
meaning is what a walk step does with the word). Rests on 43_data_processing.md R150, 43_data_processing.md R152,
43_data_processing.md R155, 43_data_processing.md R160 to R176, 10_state.md R30, notes/assumptions/5.md,
notes/assumptions/8.md, notes/assumptions/10.md, notes/assumptions/15.md. -/
def Obligations.ImmediateShiftFormsComplete : Prop :=
  ∀ (c : Cond) (sf : Bool) (rn rd : RegIdx) (o : ShiftImmOperand) (s : State),
    let op2 : Operand2 := .reg o.rm (if o.kind = .ror ∧ o.shiftImm = 0#5 then .rrx
      else match o.kind with | .lsl => .lsl | .lsr => .lsr | .asr => .asr | .ror => .ror) (.immAmount o.shiftImm)
    exec (.andRI c sf rn rd o) s = .next (afterUnresolved s ⟨c, .dataProcessing false 0b0000#4 .and sf rn rd op2⟩) ∧
    exec (.eorRI c sf rn rd o) s = .next (afterUnresolved s ⟨c, .dataProcessing false 0b0001#4 .eor sf rn rd op2⟩) ∧
    exec (.subRI c sf rn rd o) s = .next (afterUnresolved s ⟨c, .dataProcessing false 0b0010#4 .sub sf rn rd op2⟩) ∧
    exec (.rsbRI c sf rn rd o) s = .next (afterUnresolved s ⟨c, .dataProcessing false 0b0011#4 .rsb sf rn rd op2⟩) ∧
    exec (.addRI c sf rn rd o) s = .next (afterUnresolved s ⟨c, .dataProcessing false 0b0100#4 .add sf rn rd op2⟩) ∧
    exec (.adcRI c sf rn rd o) s = .next (afterUnresolved s ⟨c, .dataProcessing false 0b0101#4 .adc sf rn rd op2⟩) ∧
    exec (.sbcRI c sf rn rd o) s = .next (afterUnresolved s ⟨c, .dataProcessing false 0b0110#4 .sbc sf rn rd op2⟩) ∧
    exec (.rscRI c sf rn rd o) s = .next (afterUnresolved s ⟨c, .dataProcessing false 0b0111#4 .rsc sf rn rd op2⟩) ∧
    exec (.tstRI c sf rn rd o) s = .next (afterUnresolved s ⟨c, .dataProcessing false 0b1000#4 .tst sf rn rd op2⟩) ∧
    exec (.teqRI c rn rd o) s = .next (afterUnresolved s ⟨c, .dataProcessing false 0b1001#4 .teq true rn rd op2⟩) ∧
    exec (.psrxRI c rn rd o) s = .next (afterUnresolved s ⟨c, .dataProcessing false 0b1001#4 .statusRegisterTransfer false rn rd op2⟩) ∧
    exec (.cmpRI c sf rn rd o) s = .next (afterUnresolved s ⟨c, .dataProcessing false 0b1010#4 .cmp sf rn rd op2⟩) ∧
    exec (.cmnRI c sf rn rd o) s = .next (afterUnresolved s ⟨c, .dataProcessing false 0b1011#4 .cmn sf rn rd op2⟩) ∧
    exec (.orrRI c sf rn rd o) s = .next (afterUnresolved s ⟨c, .dataProcessing false 0b1100#4 .orr sf rn rd op2⟩) ∧
    exec (.movRI c sf rn rd o) s = .next (afterUnresolved s ⟨c, .dataProcessing false 0b1101#4 .mov sf rn rd op2⟩) ∧
    exec (.bicRI c sf rn rd o) s = .next (afterUnresolved s ⟨c, .dataProcessing false 0b1110#4 .bic sf rn rd op2⟩) ∧
    exec (.mvnRI c sf rn rd o) s = .next (afterUnresolved s ⟨c, .dataProcessing false 0b1111#4 .mvn sf rn rd op2⟩)

/-- All seventeen operations in the shift-by-register (DP-RR) form go on from every state with their record and None.
(The modulus of the sum is decision D13, log entry 8; the operation names and the two re-tags are decisions D16 to
D18, log entry 10; that the state keeps the outputs is log entry 5.) Log entries it rests on: 5 (the outputs kept in
the state); 8 (32-bit positions and sums, D2 and D13); 10 (names, re-tags and untreated cases: D16 to D18, D26); 15 (a
meaning is what a walk step does with the word). Rests on 43_data_processing.md R150, 43_data_processing.md R153,
43_data_processing.md R155, 43_data_processing.md R160 to R176, 10_state.md R30, notes/assumptions/5.md,
notes/assumptions/8.md, notes/assumptions/10.md, notes/assumptions/15.md. -/
def Obligations.RegisterShiftFormsComplete : Prop :=
  ∀ (c : Cond) (sf : Bool) (rn rd : RegIdx) (o : ShiftRegOperand) (s : State),
    let op2 : Operand2 := .reg o.rm
      (match o.kind with | .lsl => .lsl | .lsr => .lsr | .asr => .asr | .ror => .ror) (.regAmount o.rs)
    exec (.andRR c sf rn rd o) s = .next (afterUnresolved s ⟨c, .dataProcessing false 0b0000#4 .and sf rn rd op2⟩) ∧
    exec (.eorRR c sf rn rd o) s = .next (afterUnresolved s ⟨c, .dataProcessing false 0b0001#4 .eor sf rn rd op2⟩) ∧
    exec (.subRR c sf rn rd o) s = .next (afterUnresolved s ⟨c, .dataProcessing false 0b0010#4 .sub sf rn rd op2⟩) ∧
    exec (.rsbRR c sf rn rd o) s = .next (afterUnresolved s ⟨c, .dataProcessing false 0b0011#4 .rsb sf rn rd op2⟩) ∧
    exec (.addRR c sf rn rd o) s = .next (afterUnresolved s ⟨c, .dataProcessing false 0b0100#4 .add sf rn rd op2⟩) ∧
    exec (.adcRR c sf rn rd o) s = .next (afterUnresolved s ⟨c, .dataProcessing false 0b0101#4 .adc sf rn rd op2⟩) ∧
    exec (.sbcRR c sf rn rd o) s = .next (afterUnresolved s ⟨c, .dataProcessing false 0b0110#4 .sbc sf rn rd op2⟩) ∧
    exec (.rscRR c sf rn rd o) s = .next (afterUnresolved s ⟨c, .dataProcessing false 0b0111#4 .rsc sf rn rd op2⟩) ∧
    exec (.tstRR c sf rn rd o) s = .next (afterUnresolved s ⟨c, .dataProcessing false 0b1000#4 .tst sf rn rd op2⟩) ∧
    exec (.teqRR c rn rd o) s = .next (afterUnresolved s ⟨c, .dataProcessing false 0b1001#4 .teq true rn rd op2⟩) ∧
    exec (.psrxRR c rn rd o) s = .next (afterUnresolved s ⟨c, .dataProcessing false 0b1001#4 .statusRegisterTransfer false rn rd op2⟩) ∧
    exec (.cmpRR c sf rn rd o) s = .next (afterUnresolved s ⟨c, .dataProcessing false 0b1010#4 .cmp sf rn rd op2⟩) ∧
    exec (.cmnRR c sf rn rd o) s = .next (afterUnresolved s ⟨c, .dataProcessing false 0b1011#4 .cmn sf rn rd op2⟩) ∧
    exec (.orrRR c sf rn rd o) s = .next (afterUnresolved s ⟨c, .dataProcessing false 0b1100#4 .orr sf rn rd op2⟩) ∧
    exec (.movRR c sf rn rd o) s = .next (afterUnresolved s ⟨c, .dataProcessing false 0b1101#4 .mov sf rn rd op2⟩) ∧
    exec (.bicRR c sf rn rd o) s = .next (afterUnresolved s ⟨c, .dataProcessing false 0b1110#4 .bic sf rn rd op2⟩) ∧
    exec (.mvnRR c sf rn rd o) s = .next (afterUnresolved s ⟨c, .dataProcessing false 0b1111#4 .mvn sf rn rd op2⟩)

/-- The frame of all 56 instructions: mode, image and earlier outputs stay; one output is added. The position is the
answer's target, or 4 further where there is none (R30), and there is a target exactly for B and BL, whatever the
condition (R104, which follows the resolution of conflict C3, log entry 9). The modulus of the sum is the spec's
decision D13 (log entry 8), and that the state keeps the outputs is the model's choice (log entry 5). Log entries it
rests on: 5 (the outputs kept in the state); 8 (32-bit positions and sums, D2 and D13); 9 (resolved conflicts: C3); 15
(a meaning is what a walk step does with the word). Rests on 10_state.md R20, 10_state.md R30, 10_state.md R31,
20_memory.md R45, 40_decode_pipeline.md R104, 60_exceptions.md R215, 90_conflicts.md C3, notes/assumptions/5.md,
notes/assumptions/8.md, notes/assumptions/9.md, notes/assumptions/15.md. -/
def Obligations.InstructionsLeaveModeImageAndEarlierOutputs : Prop :=
  ∀ (i : Instr) (s t : State), exec i s = .next t →
    t.inThumbMode = s.inThumbMode ∧ t.imageLen = s.imageLen ∧ t.image = s.image ∧
    (∀ off, Memory.read t.image off = Memory.read s.image off) ∧
    ∃ o : CallOutput, t.emitted = s.emitted ++ [o] ∧ t.pc = o.newPc.getD (s.pc + 4#32) ∧
      (o.newPc.isSome = true ↔ mnemonicOf i = "B" ∨ mnemonicOf i = "BL")

/-- The meaning of every well-formed instruction is the block, word to record, on the instruction's own word. The
modulus of the sum is the spec's decision D13 (log entry 8), that the state keeps the outputs is the model's choice
(log entry 5), and so is the syntax of UNDEFINED and UNCLASSIFIED (log entry 13). Both sides follow the spec's
resolved conflicts (log entry 9) and names and re-tags (log entry 10). Log entries it rests on: 5 (the outputs kept in
the state); 8 (32-bit positions and sums, D2 and D13); 9 (resolved conflicts: C1 to C3, C5, C6); 10 (names, re-tags
and untreated cases: D16 to D19, D26); 13 (undecoded bits as syntax); 15 (a meaning is what a walk step does with the
word). Rests on 40_decode_pipeline.md R100, 70_reset_and_hazards.md R242, 30_encoding.md R62 to R67, 10_state.md R30,
92_eei_decisions.md D13, notes/assumptions/5.md, notes/assumptions/8.md, notes/assumptions/9.md,
notes/assumptions/10.md, notes/assumptions/13.md, notes/assumptions/15.md. -/
def Obligations.MeaningOfAnInstructionIsTheBlockOnItsWord : Prop :=
  ∀ (i : Instr) (s : State), i.wf = true →
    exec i s = .next
      { s with
        pc := nextPosition s.pc (decodeOne (encode i) s.pc).2
        emitted := s.emitted ++ [⟨(decodeOne (encode i) s.pc).1, (decodeOne (encode i) s.pc).2⟩] }

/-- A step runs the instruction that the bytes at the position decode to. Log entries it rests on: 3 (the image as a
canonical list); 12 (refusals, D8 to D10); 15 (a meaning is what a walk step does with the word). Rests on
70_reset_and_hazards.md R242, 20_memory.md R41, notes/assumptions/3.md, notes/assumptions/12.md,
notes/assumptions/15.md. -/
def Obligations.StepRunsTheInstructionAtThePosition : Prop :=
  ∀ (s : State) (i : Instr), Fetchable s → decodeBytes s.fetchBytes = .ok (i, []) → i.wf = true → step s = exec i s

/-- A walk step is the step of R242: refuse, or read the word, call the block, emit and move on. (R242 is marked
derived; the refusals are decisions D8 to D10, the modulus D13.) Log entries it rests on: 3 (the image as a canonical
list); 5 (the outputs kept in the state); 8 (32-bit positions and sums, D2 and D13); 9 (resolved conflicts: C5); 12
(refusals, D8 to D10); 15 (a meaning is what a walk step does with the word). Rests on 70_reset_and_hazards.md R242,
10_state.md R30, 40_decode_pipeline.md R100, 20_memory.md R41 to R43, notes/assumptions/3.md, notes/assumptions/5.md,
notes/assumptions/8.md, notes/assumptions/9.md, notes/assumptions/12.md, notes/assumptions/15.md. -/
def Obligations.StepIsOneCallOfTheBlock : Prop :=
  ∀ s : State, step s =
    if s.inThumbMode = true then .refused .thumbMode
    else if s.pc.toNat % 4 ≠ 0 then .refused .misaligned
    else if s.pc.toNat + 4 > s.imageLen then .refused .outOfBounds
    else
      let w := Memory.readWord s.image s.pc.toNat
      let r := (decodeOne w s.pc).2
      .next
        { s with
          pc := (match r with | some t => t | none => BitVec.ofNat 32 (s.pc.toNat + 4))
          emitted := s.emitted ++ [⟨(decodeOne w s.pc).1, r⟩] }

/-- A step has a next state exactly in ARM mode at an aligned position inside the image; else which refusal. (The
refusals are decisions D8 to D10.) Log entries it rests on: 8 (32-bit positions and sums, D2 and D13: the bounds test
unbounded); 12 (refusals, D8 to D10). Rests on 10_state.md R31, 20_memory.md R42, 20_memory.md R43, 60_exceptions.md
R212, 95_test_vectors.md 2.10, notes/assumptions/8.md, notes/assumptions/12.md. -/
def Obligations.StepGoesOnExactlyUnderTheDriversPreconditions : Prop :=
  ∀ s : State,
    ((∃ t, step s = .next t) ↔ s.inThumbMode = false ∧ s.pc.toNat % 4 = 0 ∧ s.pc.toNat + 4 ≤ s.imageLen) ∧
    (step s = .refused .thumbMode ↔ s.inThumbMode = true) ∧
    (step s = .refused .misaligned ↔ s.inThumbMode = false ∧ s.pc.toNat % 4 ≠ 0) ∧
    (step s = .refused .outOfBounds ↔
      s.inThumbMode = false ∧ s.pc.toNat % 4 = 0 ∧ s.imageLen < s.pc.toNat + 4) ∧
    (∀ r, step s = .refused r → r = .thumbMode ∨ r = .misaligned ∨ r = .outOfBounds)

/-- What a step emits and where it goes depend only on the position and the four bytes there. Log entries it rests on:
3 (the image as a canonical list); 5 (the outputs kept in the state); 9 (resolved conflicts: C5). Rests on 00_scope.md
R10, 40_decode_pipeline.md R107, 20_memory.md R42, 70_reset_and_hazards.md R243, notes/assumptions/3.md,
notes/assumptions/5.md, notes/assumptions/9.md. -/
def Obligations.StepSeesOnlyThePositionAndItsFourBytes : Prop :=
  ∀ s s' t t' : State, s.pc = s'.pc → s.fetchBytes = s'.fetchBytes →
    step s = .next t → step s' = .next t' →
    t.pc = t'.pc ∧ ∃ o, t.emitted = s.emitted ++ [o] ∧ t'.emitted = s'.emitted ++ [o]

/-- A word placed with withFetchWord is the one the next step runs. (How a program comes to run is the model's choice,
log entry 2.) Log entries it rests on: 2 (the image is loaded from outside); 3 (the image as a canonical list); 15 (a
meaning is what a walk step does with the word); 17 (decodeTableWord). Rests on 20_memory.md R41,
70_reset_and_hazards.md R241, notes/assumptions/2.md, notes/assumptions/3.md, notes/assumptions/15.md,
notes/assumptions/17.md. -/
def Obligations.PlacedWordIsTheNextInstruction : Prop :=
  ∀ (s : State) (nbits w : Nat), nbits ≤ 32 → s.inThumbMode = false → s.pc.toNat % 4 = 0 → Memory.wf s.image = true →
    let s' := s.withFetchWord nbits w
    ∃ i, decodeTableWord nbits w = some i ∧ step s' = exec i s' ∧
      Memory.readWord s'.image s.pc.toNat = tableWord nbits w ∧
      s'.pc = s.pc ∧ s'.inThumbMode = s.inThumbMode ∧ s'.emitted = s.emitted ∧ Memory.wf s'.image = true ∧
      (∀ off, off < s.pc.toNat ∨ s.pc.toNat + 4 ≤ off → Memory.read s'.image off = Memory.read s.image off)

/-- Reset leaves ARM mode, nothing emitted and the values the log names, and meets the walk invariant. That
in_thumb_mode is 0 is the spec's decision D12 in R32, unsafe (log entry 4). That the position is 0, the image empty
and the list of outputs empty are the model's choices (log entries 1, 2 and 5), and a step from reset, before any
image is loaded, is refused OutOfBounds, as the spec's decision D9 says (log entry 12). Log entries it rests on: 1
(INITIAL_PC is open); 2 (the image is loaded from outside); 3 (the image as a canonical list); 4 (ARM mode at the
start, D12); 5 (the outputs kept in the state); 12 (refusals, D8 to D10). Rests on 10_state.md R32, 20_memory.md R42,
70_reset_and_hazards.md R241, notes/assumptions/1.md, notes/assumptions/2.md, notes/assumptions/3.md,
notes/assumptions/4.md, notes/assumptions/5.md, notes/assumptions/12.md. -/
def Obligations.WalkInvariantHoldsAfterReset : Prop :=
  State.reset.inThumbMode = false ∧ WalkInv State.reset ∧
    State.reset.pc = 0#32 ∧ State.reset.image = [] ∧ State.reset.imageLen = 0 ∧ State.reset.emitted = [] ∧
    step State.reset = .refused .outOfBounds

/-- Every boot state with an aligned INITIAL_PC meets the walk invariant, and its first step goes on if the image
reaches. That the mode is ARM is the spec's decision D12 in R241, unsafe (log entry 4); the canonical form is log
entry 3, the empty list of outputs log entry 5, and INITIAL_PC and the image come from outside (log entries 1 and 2).
Log entries it rests on: 1 (INITIAL_PC is open); 2 (the image is loaded from outside); 3 (the image as a canonical
list); 4 (ARM mode at the start, D12); 5 (the outputs kept in the state); 12 (refusals, D8 to D10). Rests on
70_reset_and_hazards.md R241, 20_memory.md R43, notes/assumptions/1.md, notes/assumptions/2.md,
notes/assumptions/3.md, notes/assumptions/4.md, notes/assumptions/5.md, notes/assumptions/12.md. -/
def Obligations.WalkInvariantHoldsAtEveryAlignedStart : Prop :=
  ∀ (bytes : List Byte) (initialPc : Word), initialPc.toNat % 4 = 0 →
    WalkInv (bootState bytes initialPc) ∧
    (initialPc.toNat + 4 ≤ bytes.length → ∃ t, step (bootState bytes initialPc) = .next t)

/-- Every step keeps ARM mode, alignment, the image's form and the soundness of every output. The points of R101 and
the alignment of targets (R43) are marked derived; the canonical form is log entry 3, the signed offset and the
untested condition are the spec's resolutions of conflicts C1 and C3 (log entry 9), and the names and re-tags its
decisions D16 to D18 (log entry 10). Log entries it rests on: 3 (the image as a canonical list); 5 (the outputs kept
in the state); 8 (32-bit positions and sums, D2 and D13); 9 (resolved conflicts: C1, C3); 10 (names, re-tags and
untreated cases: D16 to D18, D26); 15 (a meaning is what a walk step does with the word). Rests on 20_memory.md R43,
10_state.md R31, 40_decode_pipeline.md R101, 40_decode_pipeline.md R104, 20_memory.md R45, notes/assumptions/3.md,
notes/assumptions/5.md, notes/assumptions/8.md, notes/assumptions/9.md, notes/assumptions/10.md,
notes/assumptions/15.md. -/
def Obligations.EveryStepKeepsTheWalkInvariant : Prop :=
  ∀ s t : State, WalkInv s → step s = .next t → WalkInv t

/-- A walk from an aligned ARM state never faults, misaligns or enters THUMB mode; it ends by fuel or out of bounds.
(The end of a walk is decision D21, log entry 14, and the OutOfBounds stop D9, log entry 12. The invariant holds the
canonical form, log entry 3, the signed offset and the untested condition, conflicts C1 and C3, log entry 9, and the
names and re-tags, decisions D16 to D18, log entry 10; R101 and R43 mark its points as derived.) Log entries it rests
on: 3 (the image as a canonical list); 5 (the outputs kept in the state); 8 (32-bit positions and sums, D2 and D13); 9
(resolved conflicts: C1, C3); 10 (names, re-tags and untreated cases: D16 to D18, D26); 12 (refusals, D8 to D10); 14
(the end of a walk, D21). Rests on 70_reset_and_hazards.md R245, 20_memory.md R42, 20_memory.md R43, 10_state.md R31,
notes/assumptions/3.md, notes/assumptions/5.md, notes/assumptions/8.md, notes/assumptions/9.md,
notes/assumptions/10.md, notes/assumptions/12.md, notes/assumptions/14.md. -/
def Obligations.AlignedWalkEndsByFuelOrAtTheImageEnd : Prop :=
  ∀ (fuel : Nat) (s : State), WalkInv s →
    (∃ t, walk fuel s = .fuelSpent t ∧ WalkInv t ∧ t.emitted.length = s.emitted.length + fuel) ∨
    (∃ t, walk fuel s = .refused .outOfBounds t ∧ WalkInv t ∧ t.imageLen < t.pc.toNat + 4 ∧
      t.emitted.length < s.emitted.length + fuel)

/-- No walk changes the image or the mode, and it only adds to the outputs. Log entries it rests on: 3 (the image as a
canonical list); 5 (the outputs kept in the state); 14 (the end of a walk, D21); 15 (a meaning is what a walk step
does with the word). Rests on 20_memory.md R45, 20_memory.md R50, 10_state.md R31, notes/assumptions/3.md,
notes/assumptions/5.md, notes/assumptions/14.md, notes/assumptions/15.md. -/
def Obligations.WalksLeaveImageAndModeAndExtendOutputs : Prop :=
  ∀ (fuel : Nat) (s : State),
    let t := (walk fuel s).state
    t.image = s.image ∧ t.imageLen = s.imageLen ∧ t.inThumbMode = s.inThumbMode ∧
    ∃ added : List CallOutput, t.emitted = s.emitted ++ added ∧
      ∀ o ∈ added, ∃ pc : Word,
        o = ⟨(decodeOne (Memory.readWord s.image pc.toNat) pc).1, (decodeOne (Memory.readWord s.image pc.toNat) pc).2⟩

/-- What one more step of a walk emits, where it goes, and how a walk stops. (R242 is marked derived; the end of a
walk is decision D21, the refusals D8 to D10, the modulus D13.) Log entries it rests on: 3 (the image as a canonical
list); 5 (the outputs kept in the state); 8 (32-bit positions and sums, D2 and D13); 9 (resolved conflicts: C5); 12
(refusals, D8 to D10); 14 (the end of a walk, D21); 15 (a meaning is what a walk step does with the word). Rests on
70_reset_and_hazards.md R242, R245, 10_state.md R30, 20_memory.md R41 to R43, 20_memory.md R45, 60_exceptions.md R211,
notes/assumptions/3.md, notes/assumptions/5.md, notes/assumptions/8.md, notes/assumptions/9.md,
notes/assumptions/12.md, notes/assumptions/14.md, notes/assumptions/15.md. -/
def Obligations.OneMoreStepOfAWalkEmitsAndMovesAsTheBlockAnswers : Prop :=
  ∀ (n : Nat) (s : State),
    (∀ t, walk n s = .fuelSpent t →
      let w := Memory.readWord s.image t.pc.toNat
      let r := (decodeOne w t.pc).2
      walk (n + 1) s =
        if s.inThumbMode = true then .refused .thumbMode t
        else if t.pc.toNat % 4 ≠ 0 then .refused .misaligned t
        else if s.imageLen < t.pc.toNat + 4 then .refused .outOfBounds t
        else .fuelSpent
          { t with
            pc := (match r with | some target => target | none => BitVec.ofNat 32 (t.pc.toNat + 4))
            emitted := t.emitted ++ [⟨(decodeOne w t.pc).1, r⟩] }) ∧
    (∀ reason t, walk n s = .refused reason t →
      (∀ more, walk (n + more) s = .refused reason t) ∧
      (reason = .thumbMode ∧ s.inThumbMode = true ∨ reason = .misaligned ∧ t.pc.toNat % 4 ≠ 0 ∨
        reason = .outOfBounds ∧ t.pc.toNat % 4 = 0 ∧ s.imageLen < t.pc.toNat + 4)) ∧
    (∀ f t, walk n s ≠ .faulted f t)

/-- Every word carries its condition in bits 31-28; the predicates test the class bits and never the condition.
Formalises R61. -/
def Obligations.PredicatesTestTheClassAndNeverTheCondition : Prop :=
  ∀ w : Word,
    (decodeRecord w).cond = w.extractLsb' 28 4 ∧
    (isBranch w = true → w.extractLsb' 25 3 = 0b101#3) ∧ (isBX w = true → w.extractLsb' 25 3 = 0b000#3) ∧
    (isDP w = true → w.extractLsb' 25 3 = 0b000#3 ∨ w.extractLsb' 25 3 = 0b001#3) ∧
    (isUndef w = true → w.extractLsb' 25 3 = 0b011#3) ∧
    ∀ w' : Word, w'.extractLsb' 0 28 = w.extractLsb' 0 28 →
      isBranch w' = isBranch w ∧ isBX w' = isBX w ∧ isDP w' = isDP w ∧ isUndef w' = isUndef w

/-- Every instruction is exactly four bytes, and a THUMB state makes no step. Formalises R60. -/
def Obligations.EveryInstructionIsOneWordOfFourBytes : Prop :=
  (∀ bs : List Byte, 4 ≤ bs.length → ∃ i,
      decodeBytes bs = .ok (i, bs.drop 4) ∧ ∀ more, decodeBytes (bs.take 4 ++ more) = .ok (i, more)) ∧
    (∀ s t : State, s.inThumbMode = true → step s ≠ .next t)
end

