-- ==== Sys2Proof/Laws/Decode.lean ====
section
/-! SUPPORT. The fields of the words that the encoder writes, format by format, and the small codes. -/

namespace Sys2Proof

theorem shiftKindOf_bits (k : ShiftKind) : shiftKindOf (shiftKindBits k) = k := by cases k <;> rfl

theorem shiftKindBits_of (t : BitVec 2) : shiftKindBits (shiftKindOf t) = t := by
  revert t; decide

/-- A field of a concatenation that lies in its low part. -/
theorem extract_append_low {m n : Nat} (x : BitVec m) (y : BitVec n) (lo len : Nat) (h : lo + len ≤ n) :
    (x ++ y).extractLsb' lo len = y.extractLsb' lo len := by
  ext i hi
  simp only [BitVec.getElem_extractLsb', BitVec.getLsbD_append]
  rw [if_pos (by omega)]

/-- A field of a concatenation that lies in its high part. -/
theorem extract_append_high {m n : Nat} (x : BitVec m) (y : BitVec n) (lo len : Nat) (h : n ≤ lo) :
    (x ++ y).extractLsb' lo len = x.extractLsb' (lo - n) len := by
  ext i hi
  simp only [BitVec.getElem_extractLsb', BitVec.getLsbD_append]
  rw [if_neg (by omega)]
  congr 1; omega

theorem extract_self {n : Nat} (x : BitVec n) : x.extractLsb' 0 n = x := by
  ext i hi
  simp



/-! The fields of `encodeB`. -/

@[simp] theorem cond_encodeB (c : Cond) (l : Bool) (n : BitVec 24) : condOf (encodeB c l n) = c := by
  simp (disch := decide) only [condOf, encodeB, extract_append_high]
  exact extract_self _
@[simp] theorem class_encodeB (c : Cond) (l : Bool) (n : BitVec 24) : classOf (encodeB c l n) = 0b101#3 := by
  simp (disch := decide) only [classOf, encodeB, extract_append_high, extract_append_low]
  exact extract_self _
@[simp] theorem linkBit_encodeB (c : Cond) (l : Bool) (n : BitVec 24) : linkBit (encodeB c l n) = l := by
  simp only [linkBit, encodeB, BitVec.getLsbD_append]
  simp
@[simp] theorem imm24_encodeB (c : Cond) (l : Bool) (n : BitVec 24) : imm24Of (encodeB c l n) = n := by
  simp (disch := decide) only [imm24Of, encodeB, extract_append_low]
  exact extract_self _

/-! The fields of `encodeBX`. -/

@[simp] theorem cond_encodeBX (c : Cond) (rm : RegIdx) : condOf (encodeBX c rm) = c := by
  simp (disch := decide) only [condOf, encodeBX, extract_append_high]
  exact extract_self _
@[simp] theorem rm_encodeBX (c : Cond) (rm : RegIdx) : rmOf (encodeBX c rm) = rm := by
  simp (disch := decide) only [rmOf, encodeBX, extract_append_low]
  exact extract_self _

/-! The fields of `encodeI`. -/

@[simp] theorem cond_encodeI (c : Cond) (op : BitVec 4) (s : Bool) (rn rd : RegIdx) (o : ImmOperand) : condOf (encodeI c op s rn rd o) = c := by
  simp (disch := decide) only [condOf, encodeI, extract_append_high]
  exact extract_self _
@[simp] theorem class_encodeI (c : Cond) (op : BitVec 4) (s : Bool) (rn rd : RegIdx) (o : ImmOperand) : classOf (encodeI c op s rn rd o) = 0b001#3 := by
  simp (disch := decide) only [classOf, encodeI, extract_append_high, extract_append_low]
  exact extract_self _
@[simp] theorem iBit_encodeI (c : Cond) (op : BitVec 4) (s : Bool) (rn rd : RegIdx) (o : ImmOperand) : iBit (encodeI c op s rn rd o) = true := by
  simp only [iBit, encodeI, BitVec.getLsbD_append]
  simp
@[simp] theorem opcode_encodeI (c : Cond) (op : BitVec 4) (s : Bool) (rn rd : RegIdx) (o : ImmOperand) : opcodeOf (encodeI c op s rn rd o) = op := by
  simp (disch := decide) only [opcodeOf, encodeI, extract_append_high, extract_append_low]
  exact extract_self _
@[simp] theorem sBit_encodeI (c : Cond) (op : BitVec 4) (s : Bool) (rn rd : RegIdx) (o : ImmOperand) : sBit (encodeI c op s rn rd o) = s := by
  simp only [sBit, encodeI, BitVec.getLsbD_append]
  simp
@[simp] theorem rn_encodeI (c : Cond) (op : BitVec 4) (s : Bool) (rn rd : RegIdx) (o : ImmOperand) : rnOf (encodeI c op s rn rd o) = rn := by
  simp (disch := decide) only [rnOf, encodeI, extract_append_high, extract_append_low]
  exact extract_self _
@[simp] theorem rd_encodeI (c : Cond) (op : BitVec 4) (s : Bool) (rn rd : RegIdx) (o : ImmOperand) : rdOf (encodeI c op s rn rd o) = rd := by
  simp (disch := decide) only [rdOf, encodeI, extract_append_high, extract_append_low]
  exact extract_self _
@[simp] theorem rot_encodeI (c : Cond) (op : BitVec 4) (s : Bool) (rn rd : RegIdx) (o : ImmOperand) : rotOf (encodeI c op s rn rd o) = o.rot := by
  simp (disch := decide) only [rotOf, encodeI, extract_append_high, extract_append_low]
  exact extract_self _
@[simp] theorem imm8_encodeI (c : Cond) (op : BitVec 4) (s : Bool) (rn rd : RegIdx) (o : ImmOperand) : imm8Of (encodeI c op s rn rd o) = o.imm8 := by
  simp (disch := decide) only [imm8Of, encodeI, extract_append_low]
  exact extract_self _

/-! The fields of `encodeRI`. -/

@[simp] theorem cond_encodeRI (c : Cond) (op : BitVec 4) (s : Bool) (rn rd : RegIdx) (o : ShiftImmOperand) : condOf (encodeRI c op s rn rd o) = c := by
  simp (disch := decide) only [condOf, encodeRI, extract_append_high]
  exact extract_self _
@[simp] theorem class_encodeRI (c : Cond) (op : BitVec 4) (s : Bool) (rn rd : RegIdx) (o : ShiftImmOperand) : classOf (encodeRI c op s rn rd o) = 0b000#3 := by
  simp (disch := decide) only [classOf, encodeRI, extract_append_high, extract_append_low]
  exact extract_self _
@[simp] theorem iBit_encodeRI (c : Cond) (op : BitVec 4) (s : Bool) (rn rd : RegIdx) (o : ShiftImmOperand) : iBit (encodeRI c op s rn rd o) = false := by
  simp only [iBit, encodeRI, BitVec.getLsbD_append]
  simp
@[simp] theorem opcode_encodeRI (c : Cond) (op : BitVec 4) (s : Bool) (rn rd : RegIdx) (o : ShiftImmOperand) : opcodeOf (encodeRI c op s rn rd o) = op := by
  simp (disch := decide) only [opcodeOf, encodeRI, extract_append_high, extract_append_low]
  exact extract_self _
@[simp] theorem sBit_encodeRI (c : Cond) (op : BitVec 4) (s : Bool) (rn rd : RegIdx) (o : ShiftImmOperand) : sBit (encodeRI c op s rn rd o) = s := by
  simp only [sBit, encodeRI, BitVec.getLsbD_append]
  simp
@[simp] theorem rn_encodeRI (c : Cond) (op : BitVec 4) (s : Bool) (rn rd : RegIdx) (o : ShiftImmOperand) : rnOf (encodeRI c op s rn rd o) = rn := by
  simp (disch := decide) only [rnOf, encodeRI, extract_append_high, extract_append_low]
  exact extract_self _
@[simp] theorem rd_encodeRI (c : Cond) (op : BitVec 4) (s : Bool) (rn rd : RegIdx) (o : ShiftImmOperand) : rdOf (encodeRI c op s rn rd o) = rd := by
  simp (disch := decide) only [rdOf, encodeRI, extract_append_high, extract_append_low]
  exact extract_self _
@[simp] theorem shiftImm_encodeRI (c : Cond) (op : BitVec 4) (s : Bool) (rn rd : RegIdx) (o : ShiftImmOperand) : shiftImmOf (encodeRI c op s rn rd o) = o.shiftImm := by
  simp (disch := decide) only [shiftImmOf, encodeRI, extract_append_high, extract_append_low]
  exact extract_self _
@[simp] theorem type_encodeRI (c : Cond) (op : BitVec 4) (s : Bool) (rn rd : RegIdx) (o : ShiftImmOperand) : typeOf (encodeRI c op s rn rd o) = shiftKindBits o.kind := by
  simp (disch := decide) only [typeOf, encodeRI, extract_append_high, extract_append_low]
  exact extract_self _
@[simp] theorem byRegBit_encodeRI (c : Cond) (op : BitVec 4) (s : Bool) (rn rd : RegIdx) (o : ShiftImmOperand) : byRegBit (encodeRI c op s rn rd o) = false := by
  simp only [byRegBit, encodeRI, BitVec.getLsbD_append]
  simp
@[simp] theorem rm_encodeRI (c : Cond) (op : BitVec 4) (s : Bool) (rn rd : RegIdx) (o : ShiftImmOperand) : rmOf (encodeRI c op s rn rd o) = o.rm := by
  simp (disch := decide) only [rmOf, encodeRI, extract_append_low]
  exact extract_self _

/-! The fields of `encodeRR`. -/

@[simp] theorem cond_encodeRR (c : Cond) (op : BitVec 4) (s : Bool) (rn rd : RegIdx) (o : ShiftRegOperand) : condOf (encodeRR c op s rn rd o) = c := by
  simp (disch := decide) only [condOf, encodeRR, extract_append_high]
  exact extract_self _
@[simp] theorem class_encodeRR (c : Cond) (op : BitVec 4) (s : Bool) (rn rd : RegIdx) (o : ShiftRegOperand) : classOf (encodeRR c op s rn rd o) = 0b000#3 := by
  simp (disch := decide) only [classOf, encodeRR, extract_append_high, extract_append_low]
  exact extract_self _
@[simp] theorem iBit_encodeRR (c : Cond) (op : BitVec 4) (s : Bool) (rn rd : RegIdx) (o : ShiftRegOperand) : iBit (encodeRR c op s rn rd o) = false := by
  simp only [iBit, encodeRR, BitVec.getLsbD_append]
  simp
@[simp] theorem opcode_encodeRR (c : Cond) (op : BitVec 4) (s : Bool) (rn rd : RegIdx) (o : ShiftRegOperand) : opcodeOf (encodeRR c op s rn rd o) = op := by
  simp (disch := decide) only [opcodeOf, encodeRR, extract_append_high, extract_append_low]
  exact extract_self _
@[simp] theorem sBit_encodeRR (c : Cond) (op : BitVec 4) (s : Bool) (rn rd : RegIdx) (o : ShiftRegOperand) : sBit (encodeRR c op s rn rd o) = s := by
  simp only [sBit, encodeRR, BitVec.getLsbD_append]
  simp
@[simp] theorem rn_encodeRR (c : Cond) (op : BitVec 4) (s : Bool) (rn rd : RegIdx) (o : ShiftRegOperand) : rnOf (encodeRR c op s rn rd o) = rn := by
  simp (disch := decide) only [rnOf, encodeRR, extract_append_high, extract_append_low]
  exact extract_self _
@[simp] theorem rd_encodeRR (c : Cond) (op : BitVec 4) (s : Bool) (rn rd : RegIdx) (o : ShiftRegOperand) : rdOf (encodeRR c op s rn rd o) = rd := by
  simp (disch := decide) only [rdOf, encodeRR, extract_append_high, extract_append_low]
  exact extract_self _
@[simp] theorem rs_encodeRR (c : Cond) (op : BitVec 4) (s : Bool) (rn rd : RegIdx) (o : ShiftRegOperand) : rsOf (encodeRR c op s rn rd o) = o.rs := by
  simp (disch := decide) only [rsOf, encodeRR, extract_append_high, extract_append_low]
  exact extract_self _
@[simp] theorem type_encodeRR (c : Cond) (op : BitVec 4) (s : Bool) (rn rd : RegIdx) (o : ShiftRegOperand) : typeOf (encodeRR c op s rn rd o) = shiftKindBits o.kind := by
  simp (disch := decide) only [typeOf, encodeRR, extract_append_high, extract_append_low]
  exact extract_self _
@[simp] theorem byRegBit_encodeRR (c : Cond) (op : BitVec 4) (s : Bool) (rn rd : RegIdx) (o : ShiftRegOperand) : byRegBit (encodeRR c op s rn rd o) = true := by
  simp only [byRegBit, encodeRR, BitVec.getLsbD_append]
  simp
@[simp] theorem rm_encodeRR (c : Cond) (op : BitVec 4) (s : Bool) (rn rd : RegIdx) (o : ShiftRegOperand) : rmOf (encodeRR c op s rn rd o) = o.rm := by
  simp (disch := decide) only [rmOf, encodeRR, extract_append_low]
  exact extract_self _

/-! The fields of `encodeUnd`. -/

@[simp] theorem cond_encodeUnd (c : Cond) (hi : BitVec 20) (lo : BitVec 4) : condOf (encodeUnd c hi lo) = c := by
  simp (disch := decide) only [condOf, encodeUnd, extract_append_high]
  exact extract_self _
@[simp] theorem class_encodeUnd (c : Cond) (hi : BitVec 20) (lo : BitVec 4) : classOf (encodeUnd c hi lo) = 0b011#3 := by
  simp (disch := decide) only [classOf, encodeUnd, extract_append_high, extract_append_low]
  exact extract_self _
@[simp] theorem byRegBit_encodeUnd (c : Cond) (hi : BitVec 20) (lo : BitVec 4) : byRegBit (encodeUnd c hi lo) = true := by
  simp only [byRegBit, encodeUnd, BitVec.getLsbD_append]
  simp


/-! The classifier in the fields, and the variant of each format's words. -/

/-- A part of bits 27–4 of a word. -/
theorem extract_of_bits27To4 {w : Word} {p : BitVec 24} (h : w.extractLsb' 4 24 = p) (lo len : Nat)
    (hl : lo + len ≤ 24) : w.extractLsb' (4 + lo) len = p.extractLsb' lo len := by
  rw [← h]
  ext i hi
  simp only [BitVec.getElem_extractLsb', BitVec.getLsbD_extractLsb', show lo + i < 24 by omega, decide_true,
    Bool.true_and]
  congr 1; omega

theorem isBX_bits {w : Word} (h : isBX w = true) : w.extractLsb' 4 24 = 0b000100101111111111110001#24 := by
  simpa [isBX] using h

theorem class_of_isBX {w : Word} (h : isBX w = true) : classOf w = 0b000#3 :=
  extract_of_bits27To4 (isBX_bits h) 21 3 (by decide)

theorem isBX_of_class_ne {w : Word} (h : classOf w ≠ 0b000#3) : isBX w = false := by
  by_contra hc
  exact h (class_of_isBX (by simpa using hc))

/-- The four reserved nibbles are those with bits 7 and 4 both 1 (30_encoding.md R70). -/
theorem reservedNibble_bits (w : Word) :
    reservedNibble (w.extractLsb' 4 4) = (w.getLsbD 7 && w.getLsbD 4) := by
  have h : ∀ n : BitVec 4, reservedNibble n = (n.getLsbD 3 && n.getLsbD 0) := by decide
  rw [h]
  simp

theorem classify_encodeB (c : Cond) (l : Bool) (n : BitVec 24) : classify (encodeB c l n) = .branch := by
  simp [classify, isBranch]

theorem isBX_encodeBX (c : Cond) (rm : RegIdx) : isBX (encodeBX c rm) = true := by
  simp (disch := decide) only [isBX, encodeBX, extract_append_high, extract_append_low]
  simp

theorem classify_encodeBX (c : Cond) (rm : RegIdx) : classify (encodeBX c rm) = .branchExchange := by
  simp [classify, isBranch, class_of_isBX (isBX_encodeBX c rm), isBX_encodeBX]

theorem classify_encodeI (c : Cond) (op : BitVec 4) (s : Bool) (rn rd : RegIdx) (o : ImmOperand) :
    classify (encodeI c op s rn rd o) = .dataProcessing := by
  have h : isBX (encodeI c op s rn rd o) = false := isBX_of_class_ne (by simp)
  simp [classify, isBranch, isDP, h]

theorem classify_encodeRI (c : Cond) (op : BitVec 4) (s : Bool) (rn rd : RegIdx) (o : ShiftImmOperand) :
    classify (encodeRI c op s rn rd o) = .dataProcessing := by
  have h4 : (encodeRI c op s rn rd o).getLsbD 4 = false := byRegBit_encodeRI ..
  have h : isBX (encodeRI c op s rn rd o) = false := by
    by_contra hc
    have := congrArg (fun x => BitVec.getLsbD x 0) (isBX_bits (by simpa using hc))
    simp at this
    simp [this] at h4
  unfold classify isDP
  rw [h, reservedNibble_bits, h4]
  simp [isBranch]

/-- A DP-RR word is a BX exactly as R82 says: PSRX with every fixed field of the BX pattern. -/
theorem isBX_encodeRR {c : Cond} {op : BitVec 4} {s : Bool} {rn rd : RegIdx} {o : ShiftRegOperand}
    (h : isBX (encodeRR c op s rn rd o) = true) : op = 0b1001#4 ∧ s = false ∧ spellsBX rn rd o = true := by
  have part := extract_of_bits27To4 (isBX_bits h)
  have hop : op = 0b1001#4 := (opcode_encodeRR c op s rn rd o).symm.trans (part 17 4 (by decide))
  have hs : s = false := by
    have := congrArg (fun x => BitVec.getLsbD x 0) (part 16 1 (by decide))
    rw [← sBit_encodeRR c op s rn rd o]
    simpa [BitVec.getLsbD_extractLsb', sBit] using this
  have hrn : rn = 0b1111#4 := (rn_encodeRR c op s rn rd o).symm.trans (part 12 4 (by decide))
  have hrd : rd = 0b1111#4 := (rd_encodeRR c op s rn rd o).symm.trans (part 8 4 (by decide))
  have hrs : o.rs = 0b1111#4 := (rs_encodeRR c op s rn rd o).symm.trans (part 4 4 (by decide))
  have hk : o.kind = .lsl := by
    have : shiftKindBits o.kind = 0b00#2 := (type_encodeRR c op s rn rd o).symm.trans (part 1 2 (by decide))
    rw [← shiftKindOf_bits o.kind, this]
    rfl
  exact ⟨hop, hs, by simp [spellsBX, hrn, hrd, hrs, hk]⟩

theorem classify_encodeRR {c : Cond} {op : BitVec 4} {s : Bool} {rn rd : RegIdx} {o : ShiftRegOperand}
    (h : isBX (encodeRR c op s rn rd o) = false) : classify (encodeRR c op s rn rd o) = .dataProcessing := by
  have h7 : (encodeRR c op s rn rd o).getLsbD 7 = false := by
    simp only [encodeRR, BitVec.getLsbD_append]
    simp
  unfold classify isDP
  rw [h, reservedNibble_bits, h7]
  simp [isBranch]

theorem classify_encodeUnd (c : Cond) (hi : BitVec 20) (lo : BitVec 4) :
    classify (encodeUnd c hi lo) = .undefined := by
  have h : isBX (encodeUnd c hi lo) = false := isBX_of_class_ne (by simp)
  have h4 : (encodeUnd c hi lo).getLsbD 4 = true := byRegBit_encodeUnd ..
  unfold classify isDP isUndef
  rw [h, h4]
  simp [isBranch]

/-! Bytes and words. -/

/-- The bytes of a word assemble to the word (20_memory.md R41). -/
theorem assembleWord_wordBytes (w : Word) :
    assembleWord (w.extractLsb' 0 8) (w.extractLsb' 8 8) (w.extractLsb' 16 8) (w.extractLsb' 24 8) = w := by
  apply BitVec.eq_of_getLsbD_eq
  intro i hi
  simp only [assembleWord, BitVec.getLsbD_or, BitVec.getLsbD_shiftLeft, BitVec.getLsbD_setWidth,
    BitVec.getLsbD_extractLsb']
  interval_cases i <;> simp

theorem decodeBytes_wordBytes (w : Word) : decodeBytes (wordBytes w) = .ok (decodeWord w, []) := by
  simp [wordBytes, decodeBytes, assembleWord_wordBytes]

end Sys2Proof
end

