-- ==== Sys2Proof/Laws/Memory.lean ====
section
/-! SUPPORT. The image: every operation keeps the canonical form, and a read gives what was last written. -/

namespace Sys2Proof.Machine

@[simp] theorem read_nil (off : Nat) : Memory.read [] off = Config.unlistedByte := rfl

theorem read_cons (a : Nat) (b : Byte) (m : Memory) (off : Nat) :
    Memory.read ((a, b) :: m) off = if a = off then b else Memory.read m off := rfl

@[simp] theorem wf_nil : Memory.wf [] = true := rfl

theorem wfFrom_cons {a : Nat} {b : Byte} {m : Memory} {low : Nat} :
    Memory.wfFrom ((a, b) :: m) low = true ↔
      low ≤ a ∧ b ≠ Config.unlistedByte ∧ Memory.wfFrom m (a + 1) = true := by
  simp [Memory.wfFrom, and_assoc]

theorem wfFrom_mono {m : Memory} {low low' : Nat} (h : Memory.wfFrom m low = true) (hle : low' ≤ low) :
    Memory.wfFrom m low' = true := by
  cases m with
  | nil => rfl
  | cons c m =>
    rw [wfFrom_cons] at h ⊢
    exact ⟨hle.trans h.1, h.2⟩

/-- Below the lowest offset a canonical image can list, every offset reads as unlisted. -/
theorem read_below {m : Memory} {low off : Nat} (h : Memory.wfFrom m low = true) (hlt : off < low) :
    Memory.read m off = Config.unlistedByte := by
  induction m generalizing low with
  | nil => rfl
  | cons c m ih =>
    obtain ⟨hlow, -, hm⟩ := wfFrom_cons.mp h
    rw [read_cons, if_neg (by omega)]
    exact ih hm (by omega)

theorem write_wfFrom {m : Memory} {low off : Nat} (v : Byte) (h : Memory.wfFrom m low = true) (hle : low ≤ off) :
    Memory.wfFrom (Memory.write m off v) low = true := by
  induction m generalizing low with
  | nil =>
    by_cases hv : v = Config.unlistedByte <;> simp [Memory.write, hv, Memory.wfFrom, hle]
  | cons c m ih =>
    obtain ⟨hlow, hb, hm⟩ := wfFrom_cons.mp h
    simp only [Memory.write]
    split
    · split
      · exact h
      · exact wfFrom_cons.mpr ⟨hle, ‹_›, wfFrom_cons.mpr ⟨by omega, hb, hm⟩⟩
    · split
      · split
        · exact wfFrom_mono hm (by omega)
        · exact wfFrom_cons.mpr ⟨hle, ‹_›, by subst off; exact hm⟩
      · exact wfFrom_cons.mpr ⟨hlow, hb, ih hm (by omega)⟩

/-- A write keeps the canonical form. -/
theorem write_wf {m : Memory} (off : Nat) (v : Byte) (h : Memory.wf m = true) :
    Memory.wf (Memory.write m off v) = true :=
  write_wfFrom v h (Nat.zero_le _)

/-- Loading bytes keeps the canonical form. -/
theorem load_wf {m : Memory} (off : Nat) (bs : List Byte) (h : Memory.wf m = true) :
    Memory.wf (Memory.load m off bs) = true := by
  induction bs generalizing m off with
  | nil => exact h
  | cons b bs ih => exact ih _ (write_wf off b h)

theorem read_writeFrom {m : Memory} {low off : Nat} (v : Byte) (h : Memory.wfFrom m low = true) (off' : Nat) :
    Memory.read (Memory.write m off v) off' = if off = off' then v else Memory.read m off' := by
  induction m generalizing low with
  | nil =>
    simp only [Memory.write]
    by_cases hv : v = Config.unlistedByte <;> by_cases ho : off = off' <;> simp [hv, ho, read_cons]
  | cons c m ih =>
    obtain ⟨a, b⟩ := c
    obtain ⟨-, -, hm⟩ := wfFrom_cons.mp h
    have hgap : off ≤ a → Memory.read m off = Config.unlistedByte := fun hle => read_below hm (by omega)
    simp only [Memory.write]
    split
    next hlt =>
      have hne : a ≠ off := by omega
      split
      next hv =>
        split
        next he => subst he; rw [read_cons, if_neg hne, hgap hlt.le, hv]
        next => rfl
      next => rfl
    next hnlt =>
      split
      next he =>
        subst he
        split
        next hv =>
          by_cases ho : off = off'
          · subst ho; rw [hgap le_rfl, if_pos rfl, hv]
          · rw [read_cons, if_neg ho, if_neg ho]
        next =>
          by_cases ho : off = off' <;> simp [read_cons, ho]
      next hne =>
        rw [read_cons, read_cons, ih hm]
        by_cases ho : off = off'
        · subst ho; rw [if_neg (Ne.symm hne)]; simp
        · simp [ho]

/-- A read after a write: the byte written at its offset, every other offset as before. -/
theorem read_write {m : Memory} (h : Memory.wf m = true) (off : Nat) (v : Byte) (off' : Nat) :
    Memory.read (Memory.write m off v) off' = if off = off' then v else Memory.read m off' :=
  read_writeFrom v h off'

/-- A read after a load: the bytes loaded in their range, every other offset as before. -/
theorem read_load {m : Memory} (h : Memory.wf m = true) (off : Nat) (bs : List Byte) (off' : Nat) :
    Memory.read (Memory.load m off bs) off' =
      if off ≤ off' then (bs[off' - off]?).getD (Memory.read m off') else Memory.read m off' := by
  induction bs generalizing m off with
  | nil => simp [Memory.load]
  | cons b bs ih =>
    rw [Memory.load, ih (write_wf off b h), read_write h]
    rcases lt_trichotomy off off' with hlt | heq | hgt
    · have : off' - off = off' - (off + 1) + 1 := by omega
      rw [if_pos (by omega), if_pos hlt.le, if_neg hlt.ne, this, List.getElem?_cons_succ]
    · subst heq; simp
    · rw [if_neg (by omega), if_neg hgt.ne', if_neg (by omega)]

theorem mem_write {m : Memory} {off : Nat} {v : Byte} {c : Host.Cell} (h : c ∈ Memory.write m off v) :
    c = (off, v) ∨ c ∈ m := by
  induction m with
  | nil =>
    simp only [Memory.write] at h
    split at h <;> simp_all
  | cons d m ih =>
    simp only [Memory.write] at h
    split at h
    · split at h <;> simp_all
    · split at h
      · split at h
        · exact .inr (List.mem_cons_of_mem _ h)
        · rcases List.mem_cons.mp h with h | h
          · exact .inl h
          · exact .inr (List.mem_cons_of_mem _ h)
      · rcases List.mem_cons.mp h with h | h
        · exact .inr (h ▸ List.mem_cons_self)
        · exact (ih h).imp_right (List.mem_cons_of_mem _)

/-- Loading bytes lists no offset past the last of them that was not listed before. -/
theorem mem_load {m : Memory} {off : Nat} {bs : List Byte} {c : Host.Cell} (h : c ∈ Memory.load m off bs) :
    c ∈ m ∨ c.1 < off + bs.length := by
  induction bs generalizing m off with
  | nil => exact .inl h
  | cons b bs ih =>
    rcases ih h with h | h
    · rcases mem_write h with h | h
      · exact .inr (by simp [h])
      · exact .inl h
    · exact .inr (by simp only [List.length_cons]; omega)

end Sys2Proof.Machine
end

