-- ==== Sys2Proof/Laws/State.lean ====
section
/-! SUPPORT. One lemma per field for each update of the state. -/

namespace Sys2Proof.Machine

@[simp] theorem setPc_pc (s : State) (v : Word) : (s.setPc v).pc = v := rfl
@[simp] theorem setPc_inThumbMode (s : State) (v : Word) : (s.setPc v).inThumbMode = s.inThumbMode := rfl
@[simp] theorem setPc_image (s : State) (v : Word) : (s.setPc v).image = s.image := rfl
@[simp] theorem setPc_imageLen (s : State) (v : Word) : (s.setPc v).imageLen = s.imageLen := rfl
@[simp] theorem setPc_emitted (s : State) (v : Word) : (s.setPc v).emitted = s.emitted := rfl

@[simp] theorem emit_pc (s : State) (o : CallOutput) : (s.emit o).pc = s.pc := rfl
@[simp] theorem emit_inThumbMode (s : State) (o : CallOutput) : (s.emit o).inThumbMode = s.inThumbMode := rfl
@[simp] theorem emit_image (s : State) (o : CallOutput) : (s.emit o).image = s.image := rfl
@[simp] theorem emit_imageLen (s : State) (o : CallOutput) : (s.emit o).imageLen = s.imageLen := rfl
@[simp] theorem emit_emitted (s : State) (o : CallOutput) : (s.emit o).emitted = s.emitted ++ [o] := rfl

@[simp] theorem records_emit (s : State) (o : CallOutput) : (s.emit o).records = s.records ++ [o.record] := by
  simp [State.records]

@[simp] theorem bootState_pc (image : List Byte) (p : Word) : (bootState image p).pc = p := rfl
@[simp] theorem bootState_inThumbMode (image : List Byte) (p : Word) : (bootState image p).inThumbMode = false := rfl
@[simp] theorem bootState_image (image : List Byte) (p : Word) :
    (bootState image p).image = Memory.load [] 0 image := rfl
@[simp] theorem bootState_imageLen (image : List Byte) (p : Word) : (bootState image p).imageLen = image.length := rfl
@[simp] theorem bootState_emitted (image : List Byte) (p : Word) : (bootState image p).emitted = [] := rfl

/-- The state before any image is loaded is the start of a walk over the empty image at the model's position 0. -/
theorem reset_eq_bootState : State.reset = bootState [] Config.resetPc := rfl

end Sys2Proof.Machine
end

