-- ==== Sys2Proof/Laws/Ops.lean ====
section
/-! SUPPORT. What the shared operations can do, said once: the fetch, the resolver and the call. -/

namespace Sys2Proof.Machine

/-- The fetch gives a word exactly under the driver's preconditions, and it is the word at the position. -/
theorem fetch_eq_ok_iff {s : State} {w : Word} :
    fetch s = .ok w ↔
      s.inThumbMode = false ∧ s.pc.toNat % 4 = 0 ∧ s.pc.toNat + 4 ≤ s.imageLen ∧
      Memory.readWord s.image s.pc.toNat = w := by
  unfold fetch Config.instrAlign
  split
  next h => simp [h]
  next h =>
    split
    next h' => simp [h']
    next h' =>
      split
      next h'' => simp; omega
      next h'' =>
        simp only [Except.ok.injEq]
        exact ⟨fun e => ⟨by simpa using h, by omega, by omega, e⟩, fun e => e.2.2.2⟩

theorem fetch_eq_thumb {s : State} (h : s.inThumbMode = true) : fetch s = .error .thumbMode := by
  simp [fetch, h]

theorem fetch_eq_misaligned {s : State} (ht : s.inThumbMode = false) (h : s.pc.toNat % 4 ≠ 0) :
    fetch s = .error .misaligned := by
  simp [fetch, ht, h, Config.instrAlign]

theorem fetch_eq_outOfBounds {s : State} (ht : s.inThumbMode = false) (ha : s.pc.toNat % 4 = 0)
    (h : s.imageLen < s.pc.toNat + 4) : fetch s = .error .outOfBounds := by
  simp [fetch, ht, ha, h, Config.instrAlign]

/-- The four bytes at the position assemble to the word the fetch reads. -/
theorem decodeBytes_fetchBytes (s : State) :
    decodeBytes s.fetchBytes = .ok (decodeWord (Memory.readWord s.image s.pc.toNat), []) := rfl

/-- The defensive check passes where the tag is the record's (40_decode_pipeline.md R106). -/
theorem resolveTagged_of_tag {tag : Bool} {rec : Decoded} (h : tag = isBranchRecord rec) (pc : Word) :
    resolveTagged tag rec pc = .ok (resolve rec pc) :=
  if_pos h

/-- A resolver's answer is some target exactly for a Branch record. -/
theorem resolve_isSome (rec : Decoded) (pc : Word) : (resolve rec pc).isSome = isBranchRecord rec := by
  unfold resolve isBranchRecord
  cases rec.body <;> rfl

/-- Everything a call with the right tag does. -/
theorem callBlock_of_tag {tag : Bool} {rec : Decoded} (h : tag = isBranchRecord rec) (s : State) :
    callBlock tag rec s =
      .next ((s.emit ⟨rec, resolve rec s.pc⟩).setPc (nextPosition s.pc (resolve rec s.pc))) := by
  simp [callBlock, resolveTagged_of_tag h]

/-- A call that goes on leaves mode and image alone and emits one output. -/
theorem callBlock_frame {tag : Bool} {rec : Decoded} {s t : State} (h : callBlock tag rec s = .next t) :
    t.inThumbMode = s.inThumbMode ∧ t.image = s.image ∧ t.imageLen = s.imageLen ∧
      ∃ o : CallOutput, o.record = rec ∧ t.emitted = s.emitted ++ [o] := by
  unfold callBlock at h
  split at h
  · cases h
  · cases h; exact ⟨rfl, rfl, rfl, _, rfl, rfl⟩

end Sys2Proof.Machine
end

