-- ==== Sys2Proof/Laws/PerInstr.lean ====
section
/-! SUPPORT. The per-instruction family EncodeCond: the word of every instruction carries the instruction's condition in
bits 31–28 (30_encoding.md R61). -/

namespace Sys2Proof.Laws.EncodeCond

/-- Bits 31–28 of the instruction's word are its condition (R61). -/
def Statement (i : Instr) : Prop := condOf (encode i) = instrCond i

theorem b (c : Cond) (n : BitVec 24) : Statement (.b c n) := cond_encodeB ..
theorem bl (c : Cond) (n : BitVec 24) : Statement (.bl c n) := cond_encodeB ..
theorem bx (c : Cond) (rm : RegIdx) : Statement (.bx c rm) := cond_encodeBX ..
theorem andI (c : Cond) (s : Bool) (rn rd : RegIdx) (o : ImmOperand) : Statement (.andI c s rn rd o) := cond_encodeI ..
theorem andRI (c : Cond) (s : Bool) (rn rd : RegIdx) (o : ShiftImmOperand) : Statement (.andRI c s rn rd o) := cond_encodeRI ..
theorem andRR (c : Cond) (s : Bool) (rn rd : RegIdx) (o : ShiftRegOperand) : Statement (.andRR c s rn rd o) := cond_encodeRR ..
theorem eorI (c : Cond) (s : Bool) (rn rd : RegIdx) (o : ImmOperand) : Statement (.eorI c s rn rd o) := cond_encodeI ..
theorem eorRI (c : Cond) (s : Bool) (rn rd : RegIdx) (o : ShiftImmOperand) : Statement (.eorRI c s rn rd o) := cond_encodeRI ..
theorem eorRR (c : Cond) (s : Bool) (rn rd : RegIdx) (o : ShiftRegOperand) : Statement (.eorRR c s rn rd o) := cond_encodeRR ..
theorem subI (c : Cond) (s : Bool) (rn rd : RegIdx) (o : ImmOperand) : Statement (.subI c s rn rd o) := cond_encodeI ..
theorem subRI (c : Cond) (s : Bool) (rn rd : RegIdx) (o : ShiftImmOperand) : Statement (.subRI c s rn rd o) := cond_encodeRI ..
theorem subRR (c : Cond) (s : Bool) (rn rd : RegIdx) (o : ShiftRegOperand) : Statement (.subRR c s rn rd o) := cond_encodeRR ..
theorem rsbI (c : Cond) (s : Bool) (rn rd : RegIdx) (o : ImmOperand) : Statement (.rsbI c s rn rd o) := cond_encodeI ..
theorem rsbRI (c : Cond) (s : Bool) (rn rd : RegIdx) (o : ShiftImmOperand) : Statement (.rsbRI c s rn rd o) := cond_encodeRI ..
theorem rsbRR (c : Cond) (s : Bool) (rn rd : RegIdx) (o : ShiftRegOperand) : Statement (.rsbRR c s rn rd o) := cond_encodeRR ..
theorem addI (c : Cond) (s : Bool) (rn rd : RegIdx) (o : ImmOperand) : Statement (.addI c s rn rd o) := cond_encodeI ..
theorem addRI (c : Cond) (s : Bool) (rn rd : RegIdx) (o : ShiftImmOperand) : Statement (.addRI c s rn rd o) := cond_encodeRI ..
theorem addRR (c : Cond) (s : Bool) (rn rd : RegIdx) (o : ShiftRegOperand) : Statement (.addRR c s rn rd o) := cond_encodeRR ..
theorem adcI (c : Cond) (s : Bool) (rn rd : RegIdx) (o : ImmOperand) : Statement (.adcI c s rn rd o) := cond_encodeI ..
theorem adcRI (c : Cond) (s : Bool) (rn rd : RegIdx) (o : ShiftImmOperand) : Statement (.adcRI c s rn rd o) := cond_encodeRI ..
theorem adcRR (c : Cond) (s : Bool) (rn rd : RegIdx) (o : ShiftRegOperand) : Statement (.adcRR c s rn rd o) := cond_encodeRR ..
theorem sbcI (c : Cond) (s : Bool) (rn rd : RegIdx) (o : ImmOperand) : Statement (.sbcI c s rn rd o) := cond_encodeI ..
theorem sbcRI (c : Cond) (s : Bool) (rn rd : RegIdx) (o : ShiftImmOperand) : Statement (.sbcRI c s rn rd o) := cond_encodeRI ..
theorem sbcRR (c : Cond) (s : Bool) (rn rd : RegIdx) (o : ShiftRegOperand) : Statement (.sbcRR c s rn rd o) := cond_encodeRR ..
theorem rscI (c : Cond) (s : Bool) (rn rd : RegIdx) (o : ImmOperand) : Statement (.rscI c s rn rd o) := cond_encodeI ..
theorem rscRI (c : Cond) (s : Bool) (rn rd : RegIdx) (o : ShiftImmOperand) : Statement (.rscRI c s rn rd o) := cond_encodeRI ..
theorem rscRR (c : Cond) (s : Bool) (rn rd : RegIdx) (o : ShiftRegOperand) : Statement (.rscRR c s rn rd o) := cond_encodeRR ..
theorem tstI (c : Cond) (s : Bool) (rn rd : RegIdx) (o : ImmOperand) : Statement (.tstI c s rn rd o) := cond_encodeI ..
theorem tstRI (c : Cond) (s : Bool) (rn rd : RegIdx) (o : ShiftImmOperand) : Statement (.tstRI c s rn rd o) := cond_encodeRI ..
theorem tstRR (c : Cond) (s : Bool) (rn rd : RegIdx) (o : ShiftRegOperand) : Statement (.tstRR c s rn rd o) := cond_encodeRR ..
theorem teqI (c : Cond) (rn rd : RegIdx) (o : ImmOperand) : Statement (.teqI c rn rd o) := cond_encodeI ..
theorem teqRI (c : Cond) (rn rd : RegIdx) (o : ShiftImmOperand) : Statement (.teqRI c rn rd o) := cond_encodeRI ..
theorem teqRR (c : Cond) (rn rd : RegIdx) (o : ShiftRegOperand) : Statement (.teqRR c rn rd o) := cond_encodeRR ..
theorem psrxI (c : Cond) (rn rd : RegIdx) (o : ImmOperand) : Statement (.psrxI c rn rd o) := cond_encodeI ..
theorem psrxRI (c : Cond) (rn rd : RegIdx) (o : ShiftImmOperand) : Statement (.psrxRI c rn rd o) := cond_encodeRI ..
theorem psrxRR (c : Cond) (rn rd : RegIdx) (o : ShiftRegOperand) : Statement (.psrxRR c rn rd o) := cond_encodeRR ..
theorem cmpI (c : Cond) (s : Bool) (rn rd : RegIdx) (o : ImmOperand) : Statement (.cmpI c s rn rd o) := cond_encodeI ..
theorem cmpRI (c : Cond) (s : Bool) (rn rd : RegIdx) (o : ShiftImmOperand) : Statement (.cmpRI c s rn rd o) := cond_encodeRI ..
theorem cmpRR (c : Cond) (s : Bool) (rn rd : RegIdx) (o : ShiftRegOperand) : Statement (.cmpRR c s rn rd o) := cond_encodeRR ..
theorem cmnI (c : Cond) (s : Bool) (rn rd : RegIdx) (o : ImmOperand) : Statement (.cmnI c s rn rd o) := cond_encodeI ..
theorem cmnRI (c : Cond) (s : Bool) (rn rd : RegIdx) (o : ShiftImmOperand) : Statement (.cmnRI c s rn rd o) := cond_encodeRI ..
theorem cmnRR (c : Cond) (s : Bool) (rn rd : RegIdx) (o : ShiftRegOperand) : Statement (.cmnRR c s rn rd o) := cond_encodeRR ..
theorem orrI (c : Cond) (s : Bool) (rn rd : RegIdx) (o : ImmOperand) : Statement (.orrI c s rn rd o) := cond_encodeI ..
theorem orrRI (c : Cond) (s : Bool) (rn rd : RegIdx) (o : ShiftImmOperand) : Statement (.orrRI c s rn rd o) := cond_encodeRI ..
theorem orrRR (c : Cond) (s : Bool) (rn rd : RegIdx) (o : ShiftRegOperand) : Statement (.orrRR c s rn rd o) := cond_encodeRR ..
theorem movI (c : Cond) (s : Bool) (rn rd : RegIdx) (o : ImmOperand) : Statement (.movI c s rn rd o) := cond_encodeI ..
theorem movRI (c : Cond) (s : Bool) (rn rd : RegIdx) (o : ShiftImmOperand) : Statement (.movRI c s rn rd o) := cond_encodeRI ..
theorem movRR (c : Cond) (s : Bool) (rn rd : RegIdx) (o : ShiftRegOperand) : Statement (.movRR c s rn rd o) := cond_encodeRR ..
theorem bicI (c : Cond) (s : Bool) (rn rd : RegIdx) (o : ImmOperand) : Statement (.bicI c s rn rd o) := cond_encodeI ..
theorem bicRI (c : Cond) (s : Bool) (rn rd : RegIdx) (o : ShiftImmOperand) : Statement (.bicRI c s rn rd o) := cond_encodeRI ..
theorem bicRR (c : Cond) (s : Bool) (rn rd : RegIdx) (o : ShiftRegOperand) : Statement (.bicRR c s rn rd o) := cond_encodeRR ..
theorem mvnI (c : Cond) (s : Bool) (rn rd : RegIdx) (o : ImmOperand) : Statement (.mvnI c s rn rd o) := cond_encodeI ..
theorem mvnRI (c : Cond) (s : Bool) (rn rd : RegIdx) (o : ShiftImmOperand) : Statement (.mvnRI c s rn rd o) := cond_encodeRI ..
theorem mvnRR (c : Cond) (s : Bool) (rn rd : RegIdx) (o : ShiftRegOperand) : Statement (.mvnRR c s rn rd o) := cond_encodeRR ..
theorem undefined (c : Cond) (hi : BitVec 20) (lo : BitVec 4) : Statement (.undefined c hi lo) := cond_encodeUnd ..
theorem unclassified (w : Word) : Statement (.unclassified w) := rfl

end Sys2Proof.Laws.EncodeCond
end

