-- ==== Sys2Proof/Laws/Step.lean ====
section
/-! SUPPORT. What a step can do, said once. -/

namespace Sys2Proof.Machine

/-- A step that goes on fetched a word and ran the instruction it decodes to. -/
theorem step_eq_next_iff {s t : State} :
    step s = .next t ↔ ∃ w, fetch s = .ok w ∧ exec (decodeWord w) s = .next t := by
  unfold step
  split
  next r h => simp [h]
  next w h => simp [h]

/-- Under the driver's preconditions a step runs the instruction at the position. -/
theorem step_of_fetch {s : State} {w : Word} (h : fetch s = .ok w) : step s = exec (decodeWord w) s := by
  simp [step, h]

theorem callForm {s : State} {r : Result} {tag : Bool} {rec : Decoded} (h : r = callBlock tag rec s)
    (ht : tag = isBranchRecord rec) : ∃ tag rec, r = callBlock tag rec s ∧ tag = isBranchRecord rec :=
  ⟨tag, rec, h, ht⟩

/-- Every meaning is one call of the block with the tag that its record carries. -/
theorem exec_eq_call (i : Instr) (s : State) :
    ∃ tag rec, exec i s = callBlock tag rec s ∧ tag = isBranchRecord rec := by
  unfold exec
  cases i <;> dsimp only <;> exact callForm rfl rfl

end Sys2Proof.Machine
end

