-- ==== Sys2Proof/Laws/Walk.lean ====
section
/-! SUPPORT. Walks compose: what a proof by induction over the fuel needs of `walk`. -/

namespace Sys2Proof.Machine

/-- A walk of `m + n` steps is a walk of `m`, followed, where that spends its fuel, by one of `n`. -/
theorem walk_add (m n : Nat) (s : State) :
    walk (m + n) s =
      match walk m s with
      | .fuelSpent t => walk n t
      | .refused r t => .refused r t
      | .faulted f t => .faulted f t := by
  induction m generalizing s with
  | zero => simp [walk]
  | succ m ih =>
    rw [show m + 1 + n = (m + n) + 1 by omega]
    simp only [walk]
    cases step s <;> simp [ih]

end Sys2Proof.Machine
end

