-- ==== Sys2Proof/Tests/Slice0.lean ====
section
/-! SUPPORT. Tests. The words of the decode tests are written out bit by bit from the formats of 30_encoding.md R62 to R67;
the expected outputs of the step tests are those of 95_test_vectors.md. The witnesses meet the hypotheses of the statements. -/

namespace Sys2Proof.Tests

open Sys2Proof Sys2Proof.Machine

/-- The output and the next position of one step at a word placed at a position. -/
def runWordAt (pc : Word) (w : Nat) : Option (CallOutput × Word) :=
  match step ({ State.reset with pc := pc }.withFetchWord 32 w) with
  | .next t => t.emitted.getLast?.map fun o => (o, t.pc)
  | .fault _ => none
  | .refused _ => none

/-! Well-formedness: each check refuses an ill-formed term, and not its neighbour. -/

theorem test_wf_refuses_psrx_spelled_as_bx : (Instr.psrxRR 14#4 15#4 15#4 ⟨15#4, .lsl, 14#4⟩).wf = false := by decide

theorem test_wf_keeps_psrx_beside_bx :
    (Instr.psrxRR 14#4 15#4 15#4 ⟨15#4, .lsr, 14#4⟩).wf = true ∧
    (Instr.psrxRR 14#4 14#4 15#4 ⟨15#4, .lsl, 14#4⟩).wf = true := by decide

theorem test_wf_refuses_unclassified_of_other_variants :
    (Instr.unclassified 0xEA000000#32).wf = false ∧ (Instr.unclassified 0xE12FFF1E#32).wf = false ∧
    (Instr.unclassified 0xE1A00000#32).wf = false ∧ (Instr.unclassified 0x02000090#32).wf = false ∧
    (Instr.unclassified 0x06000010#32).wf = false := by decide

theorem test_wf_keeps_unclassified_words :
    (Instr.unclassified 0xE0000090#32).wf = true ∧ (Instr.unclassified 0xE5910000#32).wf = true ∧
    (Instr.unclassified 0x06000000#32).wf = true ∧ (Instr.unclassified 0xE8BD8000#32).wf = true ∧
    (Instr.unclassified 0xEC000000#32).wf = true ∧ (Instr.unclassified 0xFFFFFFFF#32).wf = true := by decide

/-! Decoding, one word for each constructor. -/

theorem test_decode_b : decodeWord 0b1011_101_0_100000000000000000000110#32 = .b 0b1011#4 0x800006#24 := by decide
theorem test_decode_bl : decodeWord 0b0101_101_1_000000000000000000010000#32 = .bl 0b0101#4 0x10#24 := by decide
theorem test_decode_bx : decodeWord 0b1110_000100101111111111110001_0111#32 = .bx 0b1110#4 0b0111#4 := by decide
theorem test_decode_and :
    decodeWord 0b1110_001_0000_1_0011_0101_0010_10110001#32 =
      .andI 0b1110#4 true 0b0011#4 0b0101#4 ⟨0b0010#4, 0b10110001#8⟩ ∧
    decodeWord 0b0001_000_0000_0_0011_0101_10011_01_0_0110#32 =
      .andRI 0b0001#4 false 0b0011#4 0b0101#4 ⟨0b10011#5, .lsr, 0b0110#4⟩ ∧
    decodeWord 0b1111_000_0000_1_0011_0101_1001_0_10_1_0111#32 =
      .andRR 0b1111#4 true 0b0011#4 0b0101#4 ⟨0b1001#4, .asr, 0b0111#4⟩ := by decide
theorem test_decode_eor :
    decodeWord 0b1110_001_0001_1_0011_0101_0010_10110001#32 =
      .eorI 0b1110#4 true 0b0011#4 0b0101#4 ⟨0b0010#4, 0b10110001#8⟩ ∧
    decodeWord 0b0001_000_0001_0_0011_0101_10011_01_0_0110#32 =
      .eorRI 0b0001#4 false 0b0011#4 0b0101#4 ⟨0b10011#5, .lsr, 0b0110#4⟩ ∧
    decodeWord 0b1111_000_0001_1_0011_0101_1001_0_10_1_0111#32 =
      .eorRR 0b1111#4 true 0b0011#4 0b0101#4 ⟨0b1001#4, .asr, 0b0111#4⟩ := by decide
theorem test_decode_sub :
    decodeWord 0b1110_001_0010_1_0011_0101_0010_10110001#32 =
      .subI 0b1110#4 true 0b0011#4 0b0101#4 ⟨0b0010#4, 0b10110001#8⟩ ∧
    decodeWord 0b0001_000_0010_0_0011_0101_10011_01_0_0110#32 =
      .subRI 0b0001#4 false 0b0011#4 0b0101#4 ⟨0b10011#5, .lsr, 0b0110#4⟩ ∧
    decodeWord 0b1111_000_0010_1_0011_0101_1001_0_10_1_0111#32 =
      .subRR 0b1111#4 true 0b0011#4 0b0101#4 ⟨0b1001#4, .asr, 0b0111#4⟩ := by decide
theorem test_decode_rsb :
    decodeWord 0b1110_001_0011_1_0011_0101_0010_10110001#32 =
      .rsbI 0b1110#4 true 0b0011#4 0b0101#4 ⟨0b0010#4, 0b10110001#8⟩ ∧
    decodeWord 0b0001_000_0011_0_0011_0101_10011_01_0_0110#32 =
      .rsbRI 0b0001#4 false 0b0011#4 0b0101#4 ⟨0b10011#5, .lsr, 0b0110#4⟩ ∧
    decodeWord 0b1111_000_0011_1_0011_0101_1001_0_10_1_0111#32 =
      .rsbRR 0b1111#4 true 0b0011#4 0b0101#4 ⟨0b1001#4, .asr, 0b0111#4⟩ := by decide
theorem test_decode_add :
    decodeWord 0b1110_001_0100_1_0011_0101_0010_10110001#32 =
      .addI 0b1110#4 true 0b0011#4 0b0101#4 ⟨0b0010#4, 0b10110001#8⟩ ∧
    decodeWord 0b0001_000_0100_0_0011_0101_10011_01_0_0110#32 =
      .addRI 0b0001#4 false 0b0011#4 0b0101#4 ⟨0b10011#5, .lsr, 0b0110#4⟩ ∧
    decodeWord 0b1111_000_0100_1_0011_0101_1001_0_10_1_0111#32 =
      .addRR 0b1111#4 true 0b0011#4 0b0101#4 ⟨0b1001#4, .asr, 0b0111#4⟩ := by decide
theorem test_decode_adc :
    decodeWord 0b1110_001_0101_1_0011_0101_0010_10110001#32 =
      .adcI 0b1110#4 true 0b0011#4 0b0101#4 ⟨0b0010#4, 0b10110001#8⟩ ∧
    decodeWord 0b0001_000_0101_0_0011_0101_10011_01_0_0110#32 =
      .adcRI 0b0001#4 false 0b0011#4 0b0101#4 ⟨0b10011#5, .lsr, 0b0110#4⟩ ∧
    decodeWord 0b1111_000_0101_1_0011_0101_1001_0_10_1_0111#32 =
      .adcRR 0b1111#4 true 0b0011#4 0b0101#4 ⟨0b1001#4, .asr, 0b0111#4⟩ := by decide
theorem test_decode_sbc :
    decodeWord 0b1110_001_0110_1_0011_0101_0010_10110001#32 =
      .sbcI 0b1110#4 true 0b0011#4 0b0101#4 ⟨0b0010#4, 0b10110001#8⟩ ∧
    decodeWord 0b0001_000_0110_0_0011_0101_10011_01_0_0110#32 =
      .sbcRI 0b0001#4 false 0b0011#4 0b0101#4 ⟨0b10011#5, .lsr, 0b0110#4⟩ ∧
    decodeWord 0b1111_000_0110_1_0011_0101_1001_0_10_1_0111#32 =
      .sbcRR 0b1111#4 true 0b0011#4 0b0101#4 ⟨0b1001#4, .asr, 0b0111#4⟩ := by decide
theorem test_decode_rsc :
    decodeWord 0b1110_001_0111_1_0011_0101_0010_10110001#32 =
      .rscI 0b1110#4 true 0b0011#4 0b0101#4 ⟨0b0010#4, 0b10110001#8⟩ ∧
    decodeWord 0b0001_000_0111_0_0011_0101_10011_01_0_0110#32 =
      .rscRI 0b0001#4 false 0b0011#4 0b0101#4 ⟨0b10011#5, .lsr, 0b0110#4⟩ ∧
    decodeWord 0b1111_000_0111_1_0011_0101_1001_0_10_1_0111#32 =
      .rscRR 0b1111#4 true 0b0011#4 0b0101#4 ⟨0b1001#4, .asr, 0b0111#4⟩ := by decide
theorem test_decode_tst :
    decodeWord 0b1110_001_1000_1_0011_0101_0010_10110001#32 =
      .tstI 0b1110#4 true 0b0011#4 0b0101#4 ⟨0b0010#4, 0b10110001#8⟩ ∧
    decodeWord 0b0001_000_1000_0_0011_0101_10011_01_0_0110#32 =
      .tstRI 0b0001#4 false 0b0011#4 0b0101#4 ⟨0b10011#5, .lsr, 0b0110#4⟩ ∧
    decodeWord 0b1111_000_1000_1_0011_0101_1001_0_10_1_0111#32 =
      .tstRR 0b1111#4 true 0b0011#4 0b0101#4 ⟨0b1001#4, .asr, 0b0111#4⟩ := by decide
theorem test_decode_teq :
    decodeWord 0b1110_001_1001_1_0011_0101_0010_10110001#32 =
      .teqI 0b1110#4 0b0011#4 0b0101#4 ⟨0b0010#4, 0b10110001#8⟩ ∧
    decodeWord 0b0001_000_1001_1_0011_0101_10011_01_0_0110#32 =
      .teqRI 0b0001#4 0b0011#4 0b0101#4 ⟨0b10011#5, .lsr, 0b0110#4⟩ ∧
    decodeWord 0b1111_000_1001_1_0011_0101_1001_0_10_1_0111#32 =
      .teqRR 0b1111#4 0b0011#4 0b0101#4 ⟨0b1001#4, .asr, 0b0111#4⟩ := by decide
theorem test_decode_psrx :
    decodeWord 0b1110_001_1001_0_0011_0101_0010_10110001#32 =
      .psrxI 0b1110#4 0b0011#4 0b0101#4 ⟨0b0010#4, 0b10110001#8⟩ ∧
    decodeWord 0b0001_000_1001_0_0011_0101_10011_01_0_0110#32 =
      .psrxRI 0b0001#4 0b0011#4 0b0101#4 ⟨0b10011#5, .lsr, 0b0110#4⟩ ∧
    decodeWord 0b1111_000_1001_0_0011_0101_1001_0_10_1_0111#32 =
      .psrxRR 0b1111#4 0b0011#4 0b0101#4 ⟨0b1001#4, .asr, 0b0111#4⟩ := by decide
theorem test_decode_cmp :
    decodeWord 0b1110_001_1010_1_0011_0101_0010_10110001#32 =
      .cmpI 0b1110#4 true 0b0011#4 0b0101#4 ⟨0b0010#4, 0b10110001#8⟩ ∧
    decodeWord 0b0001_000_1010_0_0011_0101_10011_01_0_0110#32 =
      .cmpRI 0b0001#4 false 0b0011#4 0b0101#4 ⟨0b10011#5, .lsr, 0b0110#4⟩ ∧
    decodeWord 0b1111_000_1010_1_0011_0101_1001_0_10_1_0111#32 =
      .cmpRR 0b1111#4 true 0b0011#4 0b0101#4 ⟨0b1001#4, .asr, 0b0111#4⟩ := by decide
theorem test_decode_cmn :
    decodeWord 0b1110_001_1011_1_0011_0101_0010_10110001#32 =
      .cmnI 0b1110#4 true 0b0011#4 0b0101#4 ⟨0b0010#4, 0b10110001#8⟩ ∧
    decodeWord 0b0001_000_1011_0_0011_0101_10011_01_0_0110#32 =
      .cmnRI 0b0001#4 false 0b0011#4 0b0101#4 ⟨0b10011#5, .lsr, 0b0110#4⟩ ∧
    decodeWord 0b1111_000_1011_1_0011_0101_1001_0_10_1_0111#32 =
      .cmnRR 0b1111#4 true 0b0011#4 0b0101#4 ⟨0b1001#4, .asr, 0b0111#4⟩ := by decide
theorem test_decode_orr :
    decodeWord 0b1110_001_1100_1_0011_0101_0010_10110001#32 =
      .orrI 0b1110#4 true 0b0011#4 0b0101#4 ⟨0b0010#4, 0b10110001#8⟩ ∧
    decodeWord 0b0001_000_1100_0_0011_0101_10011_01_0_0110#32 =
      .orrRI 0b0001#4 false 0b0011#4 0b0101#4 ⟨0b10011#5, .lsr, 0b0110#4⟩ ∧
    decodeWord 0b1111_000_1100_1_0011_0101_1001_0_10_1_0111#32 =
      .orrRR 0b1111#4 true 0b0011#4 0b0101#4 ⟨0b1001#4, .asr, 0b0111#4⟩ := by decide
theorem test_decode_mov :
    decodeWord 0b1110_001_1101_1_0011_0101_0010_10110001#32 =
      .movI 0b1110#4 true 0b0011#4 0b0101#4 ⟨0b0010#4, 0b10110001#8⟩ ∧
    decodeWord 0b0001_000_1101_0_0011_0101_10011_01_0_0110#32 =
      .movRI 0b0001#4 false 0b0011#4 0b0101#4 ⟨0b10011#5, .lsr, 0b0110#4⟩ ∧
    decodeWord 0b1111_000_1101_1_0011_0101_1001_0_10_1_0111#32 =
      .movRR 0b1111#4 true 0b0011#4 0b0101#4 ⟨0b1001#4, .asr, 0b0111#4⟩ := by decide
theorem test_decode_bic :
    decodeWord 0b1110_001_1110_1_0011_0101_0010_10110001#32 =
      .bicI 0b1110#4 true 0b0011#4 0b0101#4 ⟨0b0010#4, 0b10110001#8⟩ ∧
    decodeWord 0b0001_000_1110_0_0011_0101_10011_01_0_0110#32 =
      .bicRI 0b0001#4 false 0b0011#4 0b0101#4 ⟨0b10011#5, .lsr, 0b0110#4⟩ ∧
    decodeWord 0b1111_000_1110_1_0011_0101_1001_0_10_1_0111#32 =
      .bicRR 0b1111#4 true 0b0011#4 0b0101#4 ⟨0b1001#4, .asr, 0b0111#4⟩ := by decide
theorem test_decode_mvn :
    decodeWord 0b1110_001_1111_1_0011_0101_0010_10110001#32 =
      .mvnI 0b1110#4 true 0b0011#4 0b0101#4 ⟨0b0010#4, 0b10110001#8⟩ ∧
    decodeWord 0b0001_000_1111_0_0011_0101_10011_01_0_0110#32 =
      .mvnRI 0b0001#4 false 0b0011#4 0b0101#4 ⟨0b10011#5, .lsr, 0b0110#4⟩ ∧
    decodeWord 0b1111_000_1111_1_0011_0101_1001_0_10_1_0111#32 =
      .mvnRR 0b1111#4 true 0b0011#4 0b0101#4 ⟨0b1001#4, .asr, 0b0111#4⟩ := by decide
theorem test_decode_undefined :
    decodeWord 0b1110_011_10000000000000000001_1_0110#32 = .undefined 0b1110#4 0x80001#20 0b0110#4 := by decide
theorem test_decode_unclassified :
    decodeWord 0b1110_010_1100100010000000000000000#32 = .unclassified 0xE5910000#32 := by decide
theorem test_decode_bytes : decodeBytes [0x1E#8, 0xFF#8, 0x2F#8, 0xE1#8, 0x00#8] = .ok (.bx 14#4 14#4, [0x00#8]) := by decide
theorem test_decode_too_short : decodeBytes [0x1E#8, 0xFF#8, 0x2F#8] = .error .tooShort := by decide
theorem test_decode_table_word : decodeTableWord 32 0x012FFF10 = some (.bx 0#4 0#4) := by decide
theorem test_encode_bx : encode (.bx 14#4 14#4) = 0xE12FFF1E#32 := by decide

/-! One step at the words of 95_test_vectors.md 2.3 to 2.8. -/

theorem test_step_b : runWordAt 0x100#32 0xEA000000 =
    some (⟨⟨14#4, .branch false 0#24 0#32⟩, some 0x10C#32⟩, 0x10C#32) := by decide
theorem test_step_bl : runWordAt 0x200#32 0xEBFFFFFF =
    some (⟨⟨14#4, .branch true 0xFFFFFF#24 0xFFFFFFFC#32⟩, some 0x208#32⟩, 0x208#32) := by decide
theorem test_step_bx : runWordAt 0x100#32 0x012FFF1F =
    some (⟨⟨0#4, .branchExchange 15#4⟩, none⟩, 0x104#32) := by decide
theorem test_step_and : runWordAt 0x100#32 0xE20100FF =
    some (⟨⟨14#4, .dataProcessing true 0#4 .and false 1#4 0#4 (.imm 0#4 0#5 0xFF#8 0xFF#32)⟩, none⟩, 0x104#32) := by decide
theorem test_step_eor : runWordAt 0x100#32 0xE0232004 =
    some (⟨⟨14#4, .dataProcessing false 1#4 .eor false 3#4 2#4 (.reg 4#4 .lsl (.immAmount 0#5))⟩, none⟩, 0x104#32) := by decide
theorem test_step_sub : runWordAt 0x100#32 0xE2565001 =
    some (⟨⟨14#4, .dataProcessing true 2#4 .sub true 6#4 5#4 (.imm 0#4 0#5 1#8 1#32)⟩, none⟩, 0x104#32) := by decide
theorem test_step_rsb : runWordAt 0x100#32 0xE2600000 =
    some (⟨⟨14#4, .dataProcessing true 3#4 .rsb false 0#4 0#4 (.imm 0#4 0#5 0#8 0#32)⟩, none⟩, 0x104#32) := by decide
theorem test_step_add : runWordAt 0x100#32 0xE0902181 =
    some (⟨⟨14#4, .dataProcessing false 4#4 .add true 0#4 2#4 (.reg 1#4 .lsl (.immAmount 3#5))⟩, none⟩, 0x104#32) := by decide
theorem test_step_adc : runWordAt 0x100#32 0xE0A11352 =
    some (⟨⟨14#4, .dataProcessing false 5#4 .adc false 1#4 1#4 (.reg 2#4 .asr (.regAmount 3#4))⟩, none⟩, 0x104#32) := by decide
theorem test_step_sbc : runWordAt 0x100#32 0xE0C54FE6 =
    some (⟨⟨14#4, .dataProcessing false 6#4 .sbc false 5#4 4#4 (.reg 6#4 .ror (.immAmount 31#5))⟩, none⟩, 0x104#32) := by decide
theorem test_step_rsc : runWordAt 0x100#32 0xE2E87FFF =
    some (⟨⟨14#4, .dataProcessing true 7#4 .rsc false 8#4 7#4 (.imm 15#4 30#5 0xFF#8 0x3FC#32)⟩, none⟩, 0x104#32) := by decide
theorem test_step_tst : runWordAt 0x100#32 0xE3100001 =
    some (⟨⟨14#4, .dataProcessing true 8#4 .tst true 0#4 0#4 (.imm 0#4 0#5 1#8 1#32)⟩, none⟩, 0x104#32) := by decide
theorem test_step_teq : runWordAt 0x100#32 0xE13FFF1E =
    some (⟨⟨14#4, .dataProcessing false 9#4 .teq true 15#4 15#4 (.reg 14#4 .lsl (.regAmount 15#4))⟩, none⟩, 0x104#32) := by decide
theorem test_step_psrx : runWordAt 0x100#32 0xE12FFF3E =
    some (⟨⟨14#4, .dataProcessing false 9#4 .statusRegisterTransfer false 15#4 15#4 (.reg 14#4 .lsr (.regAmount 15#4))⟩, none⟩, 0x104#32) := by decide
theorem test_step_cmp : runWordAt 0x100#32 0xE1500001 =
    some (⟨⟨14#4, .dataProcessing false 10#4 .cmp true 0#4 0#4 (.reg 1#4 .lsl (.immAmount 0#5))⟩, none⟩, 0x104#32) := by decide
theorem test_step_cmn : runWordAt 0x100#32 0xE3620004 =
    some (⟨⟨14#4, .dataProcessing true 11#4 .cmn false 2#4 0#4 (.imm 0#4 0#5 4#8 4#32)⟩, none⟩, 0x104#32) := by decide
theorem test_step_orr : runWordAt 0x100#32 0xE3833102 =
    some (⟨⟨14#4, .dataProcessing true 12#4 .orr false 3#4 3#4 (.imm 1#4 2#5 2#8 0x80000000#32)⟩, none⟩, 0x104#32) := by decide
theorem test_step_mov : runWordAt 0x100#32 0xE1A00060 =
    some (⟨⟨14#4, .dataProcessing false 13#4 .mov false 0#4 0#4 (.reg 0#4 .rrx (.immAmount 0#5))⟩, none⟩, 0x104#32) := by decide
theorem test_step_bic : runWordAt 0x100#32 0xE3C004FF =
    some (⟨⟨14#4, .dataProcessing true 14#4 .bic false 0#4 0#4 (.imm 4#4 8#5 0xFF#8 0xFF000000#32)⟩, none⟩, 0x104#32) := by decide
theorem test_step_mvn : runWordAt 0x100#32 0xE1E01022 =
    some (⟨⟨14#4, .dataProcessing false 15#4 .mvn false 0#4 1#4 (.reg 2#4 .lsr (.immAmount 0#5))⟩, none⟩, 0x104#32) := by decide
theorem test_step_undefined : runWordAt 0x100#32 0x06000010 =
    some (⟨⟨0#4, .undefined⟩, none⟩, 0x104#32) := by decide
theorem test_step_unclassified : runWordAt 0x100#32 0xFFFFFFFF =
    some (⟨⟨15#4, .unclassified⟩, none⟩, 0x104#32) := by decide

/-! The preconditions of the driver (95_test_vectors.md 2.10) and the image. -/

theorem test_fetch_refusals :
    fetch { State.reset with imageLen := 8, pc := 8#32 } = .error .outOfBounds ∧
    fetch { State.reset with imageLen := 8, pc := 2#32 } = .error .misaligned ∧
    fetch { State.reset with imageLen := 8, pc := 6#32 } = .error .misaligned ∧
    fetch { State.reset with imageLen := 8, inThumbMode := true } = .error .thumbMode ∧
    fetch { State.reset with imageLen := 8, pc := 0xFFFFFFFC#32 } = .error .outOfBounds := by decide

theorem test_fetch_word :
    fetch (bootState [0x01#8, 0x02#8, 0x03#8, 0x04#8, 0x1E#8, 0xFF#8, 0x2F#8, 0xE1#8] 0#32) = .ok 0x04030201#32 ∧
    fetch (bootState [0x01#8, 0x02#8, 0x03#8, 0x04#8, 0x1E#8, 0xFF#8, 0x2F#8, 0xE1#8] 4#32) = .ok 0xE12FFF1E#32 := by decide

theorem test_write_keeps_canonical_form :
    Memory.write [(4, 1#8)] 2 5#8 = [(2, 5#8), (4, 1#8)] ∧ Memory.write [(2, 5#8), (4, 1#8)] 2 0#8 = [(4, 1#8)] := by decide

theorem test_wrap_at_the_top : runWordAt 0xFFFFFFFC#32 0xE7F000F0 = some (⟨⟨14#4, .undefined⟩, none⟩, 0#32) := by decide

theorem test_condition_names : condName 0#4 = .equal ∧ condName 11#4 = .signedLessThan ∧ condName 15#4 = .always := by decide

theorem test_first_row : (firstRow opcodeTable 0xE12FFF1E#32).map TableRow.mnemonic = some "BX" := by decide

/-! Witnesses: concrete values that meet the hypotheses of the statements, clause by clause. -/

/-- A state in ARM mode whose next word is a MOV, with one output before it. -/
def witnessState : State :=
  { State.reset with emitted := [⟨⟨14#4, .branch false 0#24 0#32⟩, some 0x10C#32⟩] }.withFetchWord 32 0xE3A000FF

/-- Another state at the same word, with a longer image and other outputs. -/
def witnessOther : State :=
  { bootState [0xFF#8, 0x00#8, 0xA0#8, 0xE3#8, 0x07#8] 0#32 with emitted := [] }

theorem witness_state_fetchable : Fetchable witnessState := ⟨by decide, by decide, by decide⟩

theorem witness_state_steps : ∃ t, step witnessState = .next t := ⟨_, rfl⟩

theorem witness_state_walkInv : WalkInv witnessState where
  armMode := by decide
  aligned := by decide
  imageWf := by decide
  imageInside := by decide
  outputsSound := by
    intro o ho
    rw [List.mem_singleton.mp ho]
    exact ⟨by show (0#32 : Word) = _; decide, by decide, by intro t ht; cases ht; decide⟩

theorem witness_DecodeOfEncodeGivesTheInstructionBack :
    (Instr.psrxRR 14#4 15#4 15#4 ⟨15#4, .lsr, 14#4⟩).wf = true ∧ (Instr.unclassified 0xE0000090#32).wf = true ∧
    (Instr.mvnI 15#4 true 15#4 15#4 ⟨15#4, 0xFF#8⟩).wf = true := by decide

theorem witness_ClassifierFollowsThePredicatesOnTheWordsBits :
    isBX 0xE12FFF1E#32 = true ∧ isBX (0xE12FFF1E#32 ^^^ (1#32 <<< 4)) = false ∧
    isBX (0xE12FFF1E#32 ^^^ (1#32 <<< 27)) = false := by decide

theorem witness_DataProcessingRejectsTheReservedNibbles :
    (0x02000090#32).extractLsb' 25 3 = 0b001#3 ∧ (0xE1000050#32).extractLsb' 25 3 = 0b000#3 ∧
    (0xE00000D0#32).extractLsb' 25 3 = 0b000#3 ∧
    (0xE00000D0#32).getLsbD 7 = true ∧ (0xE00000D0#32).getLsbD 4 = true := by decide

theorem witness_PredicatesExcludeEachOtherInAnyOrder : variantPredicates.reverse.Perm variantPredicates :=
  List.reverse_perm _

theorem witness_ConditionBitsNeitherChooseNorChangeTheBody :
    (0xFA000005#32).extractLsb' 0 28 = (0x0A000005#32).extractLsb' 0 28 ∧ 0xFA000005#32 ≠ 0x0A000005#32 := by decide

theorem witness_EveryRecordCarriesBits31To28 : ∃ t, exec (.bl 14#4 0#24) witnessState = .next t := ⟨_, rfl⟩

theorem witness_WordReadIsLittleEndian : ∃ t, step witnessState = .next t := witness_state_steps

theorem witness_RrxOnlyForRotateRightByImmediateZero :
    ∀ w ∈ [0xE1A00060#32, 0xE1A00FE0#32, 0xE1A00070#32, 0xE1A00000#32, 0xE1A00020#32, 0xE1A00040#32],
      classify w = .dataProcessing ∧ w.getLsbD 25 = false := by
  intro w hw
  fin_cases hw <;> decide

theorem witness_OperandTwoIsReadFromTheFormsFields :
    (∃ op s rn rd op2, (decodeOne 0xE3A00F01#32 0#32).1.body = .dataProcessing true 13#4 op s rn rd op2) ∧
    (0xE3A00F01#32).getLsbD 25 = true ∧ (0xE3A00F01#32).extractLsb' 25 3 = 0b001#3 ∧
    (∃ op s rn rd op2, (decodeOne 0xE1A00F70#32 0#32).1.body = .dataProcessing false 13#4 op s rn rd op2) ∧
    (0xE1A00F70#32).getLsbD 25 = false ∧ (0xE1A00F70#32).getLsbD 4 = true :=
  ⟨⟨_, _, _, _, _, rfl⟩, by decide, by decide, ⟨_, _, _, _, _, rfl⟩, by decide, by decide⟩

theorem witness_BranchWordsDecodeAndResolve :
    (0xFA800000#32).extractLsb' 24 4 = 0b1010#4 ∧ (0x0B7FFFFF#32).extractLsb' 24 4 = 0b1011#4 ∧
    (0xFFFFFFF0#32).toNat + 12 < 2 ^ 32 := by decide

theorem witness_BranchTargetIsTwelvePastPlusTheOffset : (0xFFFFFFFC#32).toNat % 4 = 0 := by decide

theorem witness_BranchAnswerSameForEveryConditionAndLink :
    (0x0A000005#32).extractLsb' 25 3 = 0b101#3 ∧ (0xEB000005#32).extractLsb' 25 3 = 0b101#3 ∧
    (0x0A000005#32).extractLsb' 0 24 = (0xEB000005#32).extractLsb' 0 24 := by decide

theorem witness_BranchReencodesToBits25To0 :
    (decodeOne 0xEBFFFFFF#32 0#32).1.body = .branch true 0xFFFFFF#24 0xFFFFFFFC#32 := by decide

theorem witness_BranchExchangeWordsGiveRegisterAndNoTarget :
    (0xF12FFF13#32) &&& 0x0FFFFFF0#32 = 0x012FFF10#32 ∧ (0xE12FFF0E#32) &&& 0x0FFFFFF0#32 ≠ 0x012FFF10#32 ∧
    (0xE12FFF1E#32 ^^^ (1#32 <<< 4)) = 0xE12FFF0E#32 ∧ (0xE12FFF1E#32 ^^^ (1#32 <<< 27)) = 0xE92FFF1E#32 := by decide

theorem witness_LogicalAndMoveWordsGiveTheirRecord :
    ∀ p ∈ [(0xE20100FF#32, 0b0000#4), (0xE0232004#32, 0b0001#4), (0xE3833102#32, 0b1100#4), (0xE1B0F00E#32, 0b1101#4),
        (0xE3C004FF#32, 0b1110#4), (0xE1E01022#32, 0b1111#4)],
      classify p.1 = .dataProcessing ∧ p.1.extractLsb' 21 4 = p.2 := by
  intro p hp
  fin_cases hp <;> decide

theorem witness_ArithmeticWordsGiveTheirRecord :
    ∀ p ∈ [(0xE2565001#32, 0b0010#4), (0xE2600000#32, 0b0011#4), (0xE0902181#32, 0b0100#4), (0xE0A11352#32, 0b0101#4),
        (0xE0C54FE6#32, 0b0110#4), (0xE2E87FFF#32, 0b0111#4)],
      classify p.1 = .dataProcessing ∧ p.1.extractLsb' 21 4 = p.2 := by
  intro p hp
  fin_cases hp <;> decide

theorem witness_CompareAndStatusTransferWordsGiveTheirRecord :
    (∀ p ∈ [(0xE10F0000#32, 0b1000#4, false), (0xE13FFF1E#32, 0b1001#4, true), (0xE12FFF3E#32, 0b1001#4, false),
        (0xE14F0000#32, 0b1010#4, false), (0xE16F0000#32, 0b1011#4, false)],
      classify p.1 = .dataProcessing ∧ p.1.extractLsb' 21 4 = p.2.1 ∧ p.1.getLsbD 20 = p.2.2) ∧
    (0xE12FFF1E#32).extractLsb' 4 24 = 0b000100101111111111110001#24 := by
  refine ⟨?_, by decide⟩
  intro p hp
  fin_cases hp <;> decide

theorem witness_UndefinedAndUnclassifiedWordsCarryOnlyTheCondition :
    ((0xE7FFFFFF#32).extractLsb' 25 3 = 0b011#3 ∧ (0xE7FFFFFF#32).getLsbD 4 = true) ∧
    (isBranch 0x06000000#32 = false ∧ isBX 0x06000000#32 = false ∧ isDP 0x06000000#32 = false ∧
      isUndef 0x06000000#32 = false) ∧
    classify 0xE7FFFFFF#32 = .undefined ∧ classify 0x06000000#32 = .unclassified := by decide

theorem witness_PortsCarryTheRecordsFields :
    classify 0xEBFFFFFF#32 = .branch ∧ classify 0xE12FFF1E#32 = .branchExchange ∧
    classify 0xE7F000F0#32 = .undefined ∧ classify 0xEF000000#32 = .unclassified ∧
    (classify 0xE2E87FFF#32 = .dataProcessing ∧ (0xE2E87FFF#32).getLsbD 25 = true) ∧
    (classify 0xE0C54FE6#32 = .dataProcessing ∧ (0xE0C54FE6#32).getLsbD 25 = false ∧ (0xE0C54FE6#32).getLsbD 4 = false) ∧
    (classify 0xE0A11352#32 = .dataProcessing ∧ (0xE0A11352#32).getLsbD 25 = false ∧ (0xE0A11352#32).getLsbD 4 = true) := by
  decide

theorem witness_ConditionNamesAreFifteen : (3#4 : Cond) ≠ 15#4 ∧ condName 3#4 = condName 3#4 := by decide

theorem witness_BootImageHoldsItsBytes : 3 < [0x00#8, 0x00#8, 0x00#8, 0xEA#8].length := by decide

theorem witness_CanonicalImagesWithEqualBytesAreEqual :
    Memory.wf [(2, 5#8), (4, 1#8)] = true ∧ Memory.wf (Memory.write [(2, 5#8)] 4 1#8) = true ∧
    ∀ off, Memory.read [(2, 5#8), (4, 1#8)] off = Memory.read (Memory.write [(2, 5#8)] 4 1#8) off :=
  ⟨by decide, by decide, fun _ => rfl⟩

theorem witness_InstructionsLeaveModeImageAndEarlierOutputs :
    (∃ t, exec (.bl 14#4 0#24) witnessState = .next t) ∧
    ∃ t, exec (.movI 14#4 false 0#4 15#4 ⟨0#4, 0xFF#8⟩) witnessState = .next t := ⟨⟨_, rfl⟩, ⟨_, rfl⟩⟩

theorem witness_MeaningOfAnInstructionIsTheBlockOnItsWord :
    (Instr.psrxRR 14#4 15#4 15#4 ⟨15#4, .lsr, 14#4⟩).wf = true := by decide

theorem witness_StepRunsTheInstructionAtThePosition :
    Fetchable witnessState ∧
    decodeBytes witnessState.fetchBytes = .ok (.movI 14#4 false 0#4 0#4 ⟨0#4, 0xFF#8⟩, []) ∧
    (Instr.movI 14#4 false 0#4 0#4 ⟨0#4, 0xFF#8⟩).wf = true := ⟨witness_state_fetchable, by decide, by decide⟩

theorem witness_StepGoesOnExactlyUnderTheDriversPreconditions :
    step { State.reset with inThumbMode := true } = .refused .thumbMode ∧
    step { State.reset with pc := 2#32 } = .refused .misaligned ∧ step State.reset = .refused .outOfBounds ∧
    ∃ t, step witnessState = .next t := ⟨rfl, rfl, rfl, witness_state_steps⟩

theorem witness_StepSeesOnlyThePositionAndItsFourBytes :
    witnessState.pc = witnessOther.pc ∧ witnessState.fetchBytes = witnessOther.fetchBytes ∧
    witnessState ≠ witnessOther ∧ (∃ t, step witnessState = .next t) ∧ ∃ t, step witnessOther = .next t :=
  ⟨by decide, by decide, by decide, witness_state_steps, ⟨_, rfl⟩⟩

theorem witness_PlacedWordIsTheNextInstruction :
    State.reset.inThumbMode = false ∧ State.reset.pc.toNat % 4 = 0 ∧ Memory.wf State.reset.image = true ∧ 32 ≤ 32 := by
  decide

theorem witness_WalkInvariantHoldsAtEveryAlignedStart :
    (4#32 : Word).toNat % 4 = 0 ∧ (4#32 : Word).toNat + 4 ≤ (List.replicate 8 (1#8 : Byte)).length := by decide

theorem witness_EveryStepKeepsTheWalkInvariant : WalkInv witnessState ∧ ∃ t, step witnessState = .next t :=
  ⟨witness_state_walkInv, witness_state_steps⟩

theorem witness_AlignedWalkEndsByFuelOrAtTheImageEnd : WalkInv witnessState := witness_state_walkInv

theorem witness_PredicatesTestTheClassAndNeverTheCondition :
    isBranch 0xFAFFFFFF#32 = true ∧ isBX 0x012FFF1F#32 = true ∧ isDP 0x10000000#32 = true ∧ isDP 0xF3FFFFFF#32 = true ∧
    isUndef 0x06000010#32 = true ∧ (0xFAFFFFFF#32).extractLsb' 0 28 = (0x0AFFFFFF#32).extractLsb' 0 28 := by decide

theorem witness_EveryInstructionIsOneWordOfFourBytes :
    4 ≤ (wordBytes 0xE1A00000#32).length ∧ ({ State.reset with inThumbMode := true } : State).inThumbMode = true := by
  decide

theorem witness_OneMoreStepOfAWalkEmitsAndMovesAsTheBlockAnswers :
    (∃ t, walk 1 witnessState = .fuelSpent t) ∧ walk 1 State.reset = .refused .outOfBounds State.reset ∧
    walk 1 { State.reset with pc := 2#32 } = .refused .misaligned { State.reset with pc := 2#32 } ∧
    walk 1 { State.reset with inThumbMode := true } = .refused .thumbMode { State.reset with inThumbMode := true } :=
  ⟨⟨_, rfl⟩, rfl, rfl, rfl⟩

end Sys2Proof.Tests
end

section
/-! PROOFS. O43. One record per instruction serves every state, so a step is a function of the word and the position. -/

namespace Sys2Proof.Machine

/-- As `exec_eq_call`, with the tag and the record chosen before the state: one call serves every state. -/
theorem exec_eq_call_forall (i : Instr) :
    ∃ tag rec, (∀ s, exec i s = callBlock tag rec s) ∧ tag = isBranchRecord rec := by
  unfold exec
  cases i <;> exact ⟨_, _, fun _ => rfl, rfl⟩

/-- From every state an instruction emits one and the same record, with the resolver's answer at the position, and the
position follows that answer (70_reset_and_hazards.md R242). -/
theorem exec_eq_next_forall (i : Instr) :
    ∃ rec, ∀ s, exec i s =
      .next ((s.emit ⟨rec, resolve rec s.pc⟩).setPc (nextPosition s.pc (resolve rec s.pc))) := by
  obtain ⟨tag, rec, hcall, htag⟩ := exec_eq_call_forall i
  exact ⟨rec, fun s => (hcall s).trans (callBlock_of_tag htag s)⟩

/-- A step that goes on ran the instruction at the position. -/
theorem exec_of_step_eq_next {s t : State} (h : step s = .next t) :
    exec (decodeWord (Memory.readWord s.image s.pc.toNat)) s = .next t := by
  obtain ⟨w, hfetch, hexec⟩ := step_eq_next_iff.mp h
  obtain ⟨-, -, -, rfl⟩ := fetch_eq_ok_iff.mp hfetch
  exact hexec

/-- The four bytes at the position fix the instruction there. -/
theorem decodeWord_eq_of_fetchBytes_eq {s s' : State} (h : s.fetchBytes = s'.fetchBytes) :
    decodeWord (Memory.readWord s.image s.pc.toNat) = decodeWord (Memory.readWord s'.image s'.pc.toNat) := by
  simpa [decodeBytes_fetchBytes] using congrArg decodeBytes h

/-- Settles O43: equal bytes are one instruction, which emits the same record from both states, and the answer and the
next position are functions of that record and the position. -/
theorem stepSeesOnlyThePositionAndItsFourBytes : Obligations.StepSeesOnlyThePositionAndItsFourBytes := by
  intro s s' t t' hpc hbytes hstep hstep'
  have hexec := exec_of_step_eq_next hstep
  have hexec' := exec_of_step_eq_next hstep'
  rw [← decodeWord_eq_of_fetchBytes_eq hbytes] at hexec'
  obtain ⟨rec, hrec⟩ := exec_eq_next_forall (decodeWord (Memory.readWord s.image s.pc.toNat))
  obtain rfl := Host.Outcome.next.inj ((hrec s).symm.trans hexec)
  obtain rfl := Host.Outcome.next.inj ((hrec s').symm.trans hexec')
  exact ⟨by simp [hpc], ⟨rec, resolve rec s.pc⟩, by simp, by simp [hpc]⟩

end Sys2Proof.Machine
end

section
/-! PROOFS. O42, O45. Which refusal a step answers with, and where a walk may start. -/

namespace Sys2Proof.Machine

/-- The fetch is refused for one of three reasons, each with its exact cause; mode comes before alignment, and alignment
before bounds (70_reset_and_hazards.md R242). -/
theorem fetch_eq_error_iff {s : State} {r : Refusal} :
    fetch s = .error r ↔
      (r = .thumbMode ∧ s.inThumbMode = true) ∨
      (r = .misaligned ∧ s.inThumbMode = false ∧ s.pc.toNat % 4 ≠ 0) ∨
      (r = .outOfBounds ∧ s.inThumbMode = false ∧ s.pc.toNat % 4 = 0 ∧ s.imageLen < s.pc.toNat + 4) := by
  by_cases ht : s.inThumbMode = true
  · simp [fetch_eq_thumb ht, ht, eq_comm]
  have ht' : s.inThumbMode = false := by simpa using ht
  by_cases ha : s.pc.toNat % 4 = 0
  · by_cases hb : s.imageLen < s.pc.toNat + 4
    · simp [fetch_eq_outOfBounds ht' ha hb, ht', ha, hb, eq_comm]
    · have hok : fetch s = .ok _ := fetch_eq_ok_iff.mpr ⟨ht', ha, by omega, rfl⟩
      simp [hok, ht', ha, hb]
  · simp [fetch_eq_misaligned ht' ha, ht', ha, eq_comm]

/-- Every instruction goes on from every state. -/
theorem exec_eq_next (i : Instr) (s : State) : ∃ t, exec i s = .next t :=
  let ⟨_, hrec⟩ := exec_eq_next_forall i
  ⟨_, hrec s⟩

/-- A step goes on exactly where the fetch gives a word. -/
theorem step_goes_on_iff {s : State} : (∃ t, step s = .next t) ↔ ∃ w, fetch s = .ok w := by
  simp only [step_eq_next_iff]
  constructor
  · rintro ⟨_, w, hw, -⟩
    exact ⟨w, hw⟩
  · rintro ⟨w, hw⟩
    obtain ⟨t, ht⟩ := exec_eq_next (decodeWord w) s
    exact ⟨t, w, hw, ht⟩

/-- A step is refused exactly as its fetch is: no instruction is. -/
theorem step_eq_refused_iff {s : State} {r : Refusal} : step s = .refused r ↔ fetch s = .error r := by
  unfold step
  split
  next r' h => simp [h]
  next w h =>
    obtain ⟨t, ht⟩ := exec_eq_next (decodeWord w) s
    simp [h, ht]

/-- Settles O42: a step goes on exactly where the fetch gives a word, and is refused exactly as the fetch is. -/
theorem stepGoesOnExactlyUnderTheDriversPreconditions :
    Obligations.StepGoesOnExactlyUnderTheDriversPreconditions := by
  intro s
  simp only [step_goes_on_iff, step_eq_refused_iff]
  refine ⟨by simp [fetch_eq_ok_iff], by simp [fetch_eq_error_iff], by simp [fetch_eq_error_iff],
    by simp [fetch_eq_error_iff], fun r hr => ?_⟩
  rcases fetch_eq_error_iff.mp hr with ⟨h, -⟩ | ⟨h, -⟩ | ⟨h, -⟩
  · exact .inl h
  · exact .inr (.inl h)
  · exact .inr (.inr h)

/-- The start of a walk meets the walk invariant wherever the position is aligned. -/
theorem walkInv_bootState (bytes : List Byte) {initialPc : Word} (h : initialPc.toNat % 4 = 0) :
    WalkInv (bootState bytes initialPc) where
  armMode := rfl
  aligned := h
  imageWf := load_wf 0 bytes wf_nil
  imageInside c hc := by simpa using mem_load hc
  outputsSound o ho := nomatch ho

/-- Settles O45: reset is the start of a walk over the empty image at position 0, where no word fits. -/
theorem walkInvariantHoldsAfterReset : Obligations.WalkInvariantHoldsAfterReset := by
  have hstep : step State.reset = .refused .outOfBounds :=
    step_eq_refused_iff.mpr (fetch_eq_outOfBounds rfl rfl (by decide))
  exact ⟨rfl, walkInv_bootState [] rfl, rfl, rfl, rfl, rfl, hstep⟩

end Sys2Proof.Machine
end

section
/-! PROOFS. O38. The frame of all instructions, from the one call of the block that each of them is. -/

namespace Sys2Proof.Machine

/-- The tag an instruction passes to the block is set for B and BL, and for no other (40_decode_pipeline.md R104). -/
theorem exec_eq_call_of_mnemonic (i : Instr) (s : State) :
    ∃ tag rec, exec i s = callBlock tag rec s ∧ tag = isBranchRecord rec ∧
      (tag = true ↔ mnemonicOf i = "B" ∨ mnemonicOf i = "BL") := by
  unfold exec
  cases i <;> exact ⟨_, _, rfl, rfl, by simp [mnemonicOf]⟩

/-- The next position is the answer's target, or 4 further where there is none (10_state.md R30). -/
theorem nextPosition_eq_getD (pc : Word) (answer : Option Word) :
    nextPosition pc answer = answer.getD (pc + 4#32) := by
  cases answer <;> rfl

/-- Settles O38: a call of the block emits one output and moves the position, and its answer is some target exactly where
the tag is set. -/
theorem instructionsLeaveModeImageAndEarlierOutputs :
    Obligations.InstructionsLeaveModeImageAndEarlierOutputs := by
  intro i s t h
  obtain ⟨tag, rec, hcall, htag, hmnemonic⟩ := exec_eq_call_of_mnemonic i s
  obtain rfl := Host.Outcome.next.inj ((callBlock_of_tag htag s).symm.trans (hcall.symm.trans h))
  have hanswer : (resolve rec s.pc).isSome = tag := (resolve_isSome rec s.pc).trans htag.symm
  exact ⟨rfl, rfl, rfl, fun _ => rfl, _, rfl, nextPosition_eq_getD .., hanswer ▸ hmnemonic⟩

end Sys2Proof.Machine
end

section
/-! PROOFS. O28. The ports, variant by variant: which ports a payload leaves alone, and the bits of the word that each of
the others carries. -/

namespace Sys2Proof.Machine

/-! What the payload's ports leave alone. -/

/-- The same values on the ports that no payload drives. -/
structure SameSharedPorts (p q : Ports) : Prop where
  variant_o : p.variant_o = q.variant_o
  cond_o : p.cond_o = q.cond_o
  pc_change_valid_o : p.pc_change_valid_o = q.pc_change_valid_o
  new_pc_o : p.new_pc_o = q.new_pc_o
  fault_o : p.fault_o = q.fault_o

/-- The same values, too, on the data-processing ports that operand 2 does not drive. -/
structure SamePortsBesideOperand2 (p q : Ports) : Prop extends SameSharedPorts p q where
  dp_i_o : p.dp_i_o = q.dp_i_o
  dp_opcode_o : p.dp_opcode_o = q.dp_opcode_o
  dp_psr_xfer_o : p.dp_psr_xfer_o = q.dp_psr_xfer_o
  dp_s_o : p.dp_s_o = q.dp_s_o
  dp_rn_o : p.dp_rn_o = q.dp_rn_o
  dp_rd_o : p.dp_rd_o = q.dp_rd_o

theorem operand2Ports_frame (op2 : Operand2) (p : Ports) : SamePortsBesideOperand2 (operand2Ports op2 p) p := by
  rcases op2 with _ | ⟨_, _, _ | _⟩ <;> exact ⟨⟨rfl, rfl, rfl, rfl, rfl⟩, rfl, rfl, rfl, rfl, rfl, rfl⟩

theorem bodyPorts_frame (body : Body) (p : Ports) : SameSharedPorts (bodyPorts body p) p := by
  cases body with
  | dataProcessing i opcode op s rn rd op2 =>
    have h := operand2Ports_frame op2 { p with
      dp_i_o := i, dp_opcode_o := opcode, dp_psr_xfer_o := op == .statusRegisterTransfer, dp_s_o := s,
      dp_rn_o := rn, dp_rd_o := rd }
    exact ⟨h.variant_o, h.cond_o, h.pc_change_valid_o, h.new_pc_o, h.fault_o⟩
  | branch | branchExchange | undefined | unclassified => exact ⟨rfl, rfl, rfl, rfl, rfl⟩

/-! The record of a word under the variant that the classifier chose. -/

theorem decodeRecord_body {w : Word} {v : Variant} (h : classify w = v) : (decodeRecord w).body = decodeBody w v :=
  h ▸ rfl

theorem variantOf_decodeRecord (w : Word) : variantOf (decodeRecord w) = classify w := by
  unfold variantOf decodeRecord
  cases classify w <;> rfl

/-- The classifier's tag is the record's, as the defensive check of R106 asks. -/
theorem isBranchRecord_decodeRecord (w : Word) : isBranchRecord (decodeRecord w) = (classify w == .branch) := by
  unfold isBranchRecord decodeRecord
  cases classify w <;> rfl

theorem blockFault_eq_false (w pc : Word) : blockFault w pc = false := by
  unfold blockFault
  rw [resolveTagged_of_tag (isBranchRecord_decodeRecord w).symm]

/-- The target of a Branch word (41_branch.md R122). -/
theorem resolve_decodeRecord_branch {w : Word} (h : classify w = .branch) (pc : Word) :
    resolve (decodeRecord w) pc = some (branchTarget pc (branchByteOffset (imm24Of w))) := by
  simp [resolve, decodeRecord_body h, decodeBody]

/-! The ports that are valid for every word, and the target. -/

theorem blockPorts_variant_o (w pc : Word) : (blockPorts w pc).variant_o = variantTag (classify w) :=
  (bodyPorts_frame ..).variant_o.trans (congrArg variantTag (variantOf_decodeRecord w))

theorem blockPorts_cond_o (w pc : Word) : (blockPorts w pc).cond_o = condOf w :=
  (bodyPorts_frame ..).cond_o

theorem blockPorts_pc_change_valid_o (w pc : Word) :
    (blockPorts w pc).pc_change_valid_o = (classify w == .branch) :=
  (bodyPorts_frame ..).pc_change_valid_o.trans ((resolve_isSome ..).trans (isBranchRecord_decodeRecord w))

theorem blockPorts_new_pc_o {w : Word} (h : classify w = .branch) (pc : Word) :
    (blockPorts w pc).new_pc_o = branchTarget pc (branchByteOffset (imm24Of w)) :=
  (bodyPorts_frame ..).new_pc_o.trans (congrArg (Option.getD · _) (resolve_decodeRecord_branch h pc))

theorem blockPorts_fault_o (w pc : Word) : (blockPorts w pc).fault_o = false :=
  (bodyPorts_frame ..).fault_o.trans (blockFault_eq_false w pc)

/-! The ports of one variant. -/

/-- The block drives the payload ports of the classifier's variant. -/
theorem blockPorts_eq_bodyPorts {w : Word} {v : Variant} (h : classify w = v) (pc : Word) :
    ∃ p, blockPorts w pc = bodyPorts (decodeBody w v) p :=
  ⟨_, congrArg (bodyPorts · _) (decodeRecord_body h)⟩

theorem blockPorts_branch {w : Word} (h : classify w = .branch) (pc : Word) :
    (blockPorts w pc).b_link_o = linkBit w ∧ (blockPorts w pc).b_imm24_o = imm24Of w ∧
    (blockPorts w pc).b_offset_o = branchByteOffset (imm24Of w) := by
  obtain ⟨p, hp⟩ := blockPorts_eq_bodyPorts h pc
  rw [hp]
  exact ⟨rfl, rfl, rfl⟩

theorem blockPorts_bx_rm_o {w : Word} (h : classify w = .branchExchange) (pc : Word) :
    (blockPorts w pc).bx_rm_o = rmOf w := by
  obtain ⟨p, hp⟩ := blockPorts_eq_bodyPorts h pc
  rw [hp]
  rfl

/-- The ports with the fields of a data-processing word beside its operand 2. -/
def dpFieldPorts (w : Word) (p : Ports) : Ports :=
  { p with
    dp_i_o := iBit w, dp_opcode_o := opcodeOf w
    dp_psr_xfer_o := aluOpName (opcodeOf w) (sBit w) == .statusRegisterTransfer
    dp_s_o := sBit w, dp_rn_o := rnOf w, dp_rd_o := rdOf w }

theorem blockPorts_eq_operand2Ports {w : Word} (h : classify w = .dataProcessing) (pc : Word) :
    ∃ p, blockPorts w pc = operand2Ports (operand2Of w) (dpFieldPorts w p) :=
  blockPorts_eq_bodyPorts h pc

theorem blockPorts_dataProcessing {w : Word} (h : classify w = .dataProcessing) (pc : Word) :
    (blockPorts w pc).dp_i_o = iBit w ∧ (blockPorts w pc).dp_opcode_o = opcodeOf w ∧
    (blockPorts w pc).dp_s_o = sBit w ∧ (blockPorts w pc).dp_rn_o = rnOf w ∧ (blockPorts w pc).dp_rd_o = rdOf w ∧
    (blockPorts w pc).dp_psr_xfer_o = (aluOpName (opcodeOf w) (sBit w) == .statusRegisterTransfer) := by
  obtain ⟨p, hp⟩ := blockPorts_eq_operand2Ports h pc
  have hframe := operand2Ports_frame (operand2Of w) (dpFieldPorts w p)
  rw [hp]
  exact ⟨hframe.dp_i_o, hframe.dp_opcode_o, hframe.dp_s_o, hframe.dp_rn_o, hframe.dp_rd_o, hframe.dp_psr_xfer_o⟩

theorem blockPorts_operand2_imm {w : Word} (h : classify w = .dataProcessing) (hi : iBit w = true) (pc : Word) :
    (blockPorts w pc).dp_rot_o = rotOf w ∧ (blockPorts w pc).dp_rot_amount_o = rotateAmount (rotOf w) ∧
    (blockPorts w pc).dp_imm8_o = imm8Of w ∧ (blockPorts w pc).dp_imm_value_o = immValue (rotOf w) (imm8Of w) := by
  obtain ⟨p, hp⟩ := blockPorts_eq_operand2Ports h pc
  rw [hp, operand2Of, if_pos hi]
  exact ⟨rfl, rfl, rfl, rfl⟩

theorem blockPorts_operand2_reg {w : Word} (h : classify w = .dataProcessing) (hi : iBit w = false) (pc : Word) :
    (blockPorts w pc).dp_rm_o = rmOf w ∧ (blockPorts w pc).dp_shift_by_reg_o = byRegBit w ∧
    (blockPorts w pc).dp_shift_type_o =
      shiftTag (shiftType (shiftKindOf (typeOf w)) (byRegBit w) (shiftImmOf w)) ∧
    (byRegBit w = false → (blockPorts w pc).dp_shift_imm_o = shiftImmOf w) ∧
    (byRegBit w = true → (blockPorts w pc).dp_rs_o = rsOf w) := by
  obtain ⟨p, hp⟩ := blockPorts_eq_operand2Ports h pc
  rw [hp, operand2Of, hi]
  cases byRegBit w
  · exact ⟨rfl, rfl, rfl, fun _ => rfl, nofun⟩
  · exact ⟨rfl, rfl, rfl, nofun, fun _ => rfl⟩

/-! The codes on the ports. -/

/-- The rotate amount is twice the rotate field (30_encoding.md R78). -/
theorem rotateAmount_toNat (rot : BitVec 4) : (rotateAmount rot).toNat = 2 * rot.toNat := by
  revert rot
  decide

/-- The re-tag of R76: opcode 1001 without set-flags, and nothing else (92 D17). -/
theorem aluOpName_eq_statusRegisterTransfer_iff (opcode : BitVec 4) (s : Bool) :
    aluOpName opcode s = .statusRegisterTransfer ↔ opcode = 0b1001#4 ∧ s = false := by
  revert opcode s
  decide

/-- Only a rotate-right by an immediate 0 has a tag of its own; every other shift keeps its bits 6–5 (R24, 92 D18). -/
theorem shiftTag_shiftType (kind : ShiftKind) (byReg : Bool) (n : BitVec 5) :
    shiftTag (shiftType kind byReg n) =
      if shiftKindBits kind = 0b11#2 ∧ byReg = false ∧ n = 0#5 then 4#3 else (shiftKindBits kind).setWidth 3 := by
  cases kind with
  | ror => by_cases h : byReg = false ∧ n = 0#5 <;> simp [shiftType, shiftKindBits, h, shiftTag]
  | lsl | lsr | asr => rfl

/-- Settles O28: the ports valid for every word, then those of each variant, in the word's bits. -/
theorem portsCarryTheRecordsFields : Obligations.PortsCarryTheRecordsFields := by
  intro w pc
  have htag {v : Variant} (h : classify w = v) : (blockPorts w pc).variant_o = variantTag v :=
    h ▸ blockPorts_variant_o w pc
  refine ⟨htag, htag, htag, htag, htag, blockPorts_fault_o w pc, blockPorts_cond_o w pc,
    by simp [blockPorts_pc_change_valid_o], fun h => ?branch, fun h => blockPorts_bx_rm_o h pc, fun h => ?dp⟩
  case branch =>
    obtain ⟨hlink, himm, hoff⟩ := blockPorts_branch h pc
    exact ⟨hlink, himm, hoff, hoff ▸ blockPorts_new_pc_o h pc⟩
  case dp =>
    obtain ⟨hi, hopcode, hs, hrn, hrd, hpsr⟩ := blockPorts_dataProcessing h pc
    refine ⟨hi, hopcode, hs, hrn, hrd, ?psr, fun hI => ?imm, fun hI => ?reg⟩
    case psr =>
      rw [hpsr, beq_iff_eq]
      exact aluOpName_eq_statusRegisterTransfer_iff (opcodeOf w) (sBit w)
    case imm =>
      obtain ⟨hrot, hamount, himm8, hvalue⟩ := blockPorts_operand2_imm h hI pc
      exact ⟨hrot, hamount ▸ rotateAmount_toNat _, himm8, hvalue⟩
    case reg =>
      obtain ⟨hrm, hbyReg, hshift, himm, hrs⟩ := blockPorts_operand2_reg h hI pc
      rw [shiftTag_shiftType, shiftKindBits_of] at hshift
      exact ⟨hrm, hbyReg, hshift, himm, hrs⟩

end Sys2Proof.Machine
end

section
/-! PROOFS. The instruction a word decodes to means the block on that word, so a step is one call of the block; what
O47 and O49 rest on. -/

namespace Sys2Proof.Machine

/-- The bits 24–21 that name an operation (30_encoding.md R75). -/
def aluOpcodeBits : AluOpcode → BitVec 4
  | .and => 0b0000#4 | .eor => 0b0001#4 | .sub => 0b0010#4 | .rsb => 0b0011#4
  | .add => 0b0100#4 | .adc => 0b0101#4 | .sbc => 0b0110#4 | .rsc => 0b0111#4
  | .tst => 0b1000#4 | .teq => 0b1001#4 | .cmp => 0b1010#4 | .cmn => 0b1011#4
  | .orr => 0b1100#4 | .mov => 0b1101#4 | .bic => 0b1110#4 | .mvn => 0b1111#4

theorem aluOpcodeBits_of (b : BitVec 4) : aluOpcodeBits (aluOpcodeOf b) = b := by
  revert b; decide

/-- The record of a data-processing word with a given operand 2 (43_data_processing.md R150). -/
def dpRecordOf (w : Word) (i : Bool) (op2 : Operand2) : Decoded :=
  dpRecord (condOf w) i (opcodeOf w) (aluOpName (opcodeOf w) (sBit w)) (sBit w) (rnOf w) (rdOf w) op2

/-- The three forms of a data-processing word, opcode by opcode; opcode 1001 goes by the set-flags bit (R76). -/
theorem exec_decode_forms (w : Word) (s : State) :
    exec (decodeI w) s = callBlock false (dpRecordOf w true (operand2Imm (immFields w))) s ∧
    exec (decodeRI w) s = callBlock false (dpRecordOf w false (operand2RegImm (shiftImmFields w))) s ∧
    exec (decodeRR w) s = callBlock false (dpRecordOf w false (operand2RegReg (shiftRegFields w))) s := by
  unfold decodeI decodeRI decodeRR dpRecordOf aluOpName
  have hop := aluOpcodeBits_of (opcodeOf w)
  generalize aluOpcodeOf (opcodeOf w) = o at hop ⊢
  rw [← hop]
  cases o with
  | teq => cases sBit w <;> exact ⟨rfl, rfl, rfl⟩
  | _ => exact ⟨rfl, rfl, rfl⟩

theorem shiftType_byReg (kind : ShiftKind) (n n' : BitVec 5) : shiftType kind true n = shiftType kind true n' := by
  cases kind <;> rfl

/-- The three forms' operands, put together by the immediate flag and bit 4 as the block does (R150 to R153). -/
theorem operand2Of_eq (w : Word) : operand2Of w =
    if iBit w then operand2Imm (immFields w)
    else if byRegBit w then operand2RegReg (shiftRegFields w) else operand2RegImm (shiftImmFields w) := by
  unfold operand2Of
  cases iBit w
  · cases byRegBit w
    · rfl
    · exact congrArg (Operand2.reg _ · _) (shiftType_byReg ..)
  · rfl

theorem exec_decodeDP (w : Word) (s : State) :
    exec (decodeDP w) s = callBlock false (dpRecordOf w (iBit w) (operand2Of w)) s := by
  obtain ⟨hI, hRI, hRR⟩ := exec_decode_forms w s
  rw [operand2Of_eq]
  unfold decodeDP
  cases iBit w
  · cases byRegBit w
    · exact hRI
    · exact hRR
  · exact hI

/-- The meaning of the instruction a word decodes to is one call of the block with the word's record and the
classifier's tag. -/
theorem exec_decodeWord_eq_call (w : Word) (s : State) :
    exec (decodeWord w) s = callBlock (classify w == .branch) (decodeRecord w) s := by
  unfold decodeWord decodeRecord
  cases classify w with
  | branch =>
    unfold decodeBody
    cases linkBit w <;> rfl
  | dataProcessing => exact exec_decodeDP w s
  | branchExchange | undefined | unclassified => rfl

/-- From every state, the instruction a word decodes to emits the word's record with the resolver's answer, and the
position follows that answer (70_reset_and_hazards.md R242). -/
theorem exec_decodeWord (w : Word) (s : State) :
    exec (decodeWord w) s =
      .next ((s.emit ⟨decodeRecord w, resolve (decodeRecord w) s.pc⟩).setPc
        (nextPosition s.pc (resolve (decodeRecord w) s.pc))) :=
  (exec_decodeWord_eq_call w s).trans (callBlock_of_tag (isBranchRecord_decodeRecord w).symm s)

/-- The block's output on the word of an image at a position. -/
def outputAt (m : Memory) (pc : Word) : CallOutput :=
  let w := Memory.readWord m pc.toNat
  ⟨decodeRecord w, resolve (decodeRecord w) pc⟩

/-- A step that goes on emits the block's output on the word at the position, and moves as that output answers. -/
theorem eq_of_step_eq_next {s t : State} (h : step s = .next t) :
    t = (s.emit (outputAt s.image s.pc)).setPc (nextPosition s.pc (outputAt s.image s.pc).newPc) :=
  (Host.Outcome.next.inj ((exec_decodeWord _ s).symm.trans (exec_of_step_eq_next h))).symm

end Sys2Proof.Machine
end

section
/-! PROOFS. O47. The outputs of the block are sound, and the position stays aligned. -/

namespace Sys2Proof.Machine

theorem rrx_amount_of_shiftType {kind : ShiftKind} {n : BitVec 5} (h : shiftType kind false n = .rrx) : n = 0#5 := by
  cases kind with
  | ror => by_contra hn; simp [shiftType, hn] at h
  | lsl | lsr | asr => cases h

theorem shiftType_byReg_ne_rrx (kind : ShiftKind) (n : BitVec 5) : shiftType kind true n ≠ .rrx := by
  cases kind <;> simp [shiftType]

theorem operand2Of_sound (w : Word) : Operand2.Sound (iBit w) (operand2Of w) := by
  rw [operand2Of_eq]
  cases iBit w
  · cases byRegBit w
    · exact ⟨rfl, fun h => congrArg _ (rrx_amount_of_shiftType h)⟩
    · exact ⟨rfl, fun h => (shiftType_byReg_ne_rrx _ _ h).elim⟩
  · exact ⟨rfl, rotateAmount_toNat _, rfl⟩

/-- Without the re-tag of R76 the operation is the one the opcode names, whatever the set-flags bit. -/
theorem aluOpName_of_ne_statusRegisterTransfer {opcode : BitVec 4} {s : Bool}
    (h : aluOpName opcode s ≠ .statusRegisterTransfer) : aluOpName opcode s = aluOpName opcode true := by
  revert opcode s; decide

/-- The record of every word has the invariants of R101. -/
theorem decodeRecord_sound (w : Word) : Decoded.Sound (decodeRecord w) := by
  unfold Decoded.Sound decodeRecord
  cases classify w with
  | branch => rfl
  | dataProcessing =>
    exact ⟨operand2Of_sound w, aluOpName_eq_statusRegisterTransfer_iff .., aluOpName_of_ne_statusRegisterTransfer⟩
  | branchExchange | undefined | unclassified => trivial

/-! Alignment (20_memory.md R43). -/

/-- The value of a concatenation: the low part counts as it is, the high part from its width on. -/
theorem toNat_append_eq_add {m n : Nat} (x : BitVec m) (y : BitVec n) :
    (x ++ y).toNat = 2 ^ n * x.toNat + y.toNat := by
  rw [BitVec.toNat_append, ← Nat.shiftLeft_add_eq_or_of_lt y.isLt, Nat.shiftLeft_eq, Nat.mul_comm]

theorem branchByteOffset_aligned (imm24 : BitVec 24) : (branchByteOffset imm24).toNat % 4 = 0 := by
  rw [branchByteOffset, BitVec.toNat_signExtend, BitVec.toNat_setWidth, toNat_append_eq_add, BitVec.toNat_ofNat]
  split <;> omega

theorem branchTarget_aligned {pc off : Word} (hpc : pc.toNat % 4 = 0) (hoff : off.toNat % 4 = 0) :
    (branchTarget pc off).toNat % 4 = 0 := by
  simp only [branchTarget, Config.branchBias, BitVec.toNat_add, BitVec.toNat_ofNat]
  omega

theorem aligned_of_resolve {w pc t : Word} (hpc : pc.toNat % 4 = 0) (h : resolve (decodeRecord w) pc = some t) :
    t.toNat % 4 = 0 := by
  have hbranch : classify w = .branch := by
    simpa [h, isBranchRecord_decodeRecord] using resolve_isSome (decodeRecord w) pc
  obtain rfl := Option.some.inj ((resolve_decodeRecord_branch hbranch pc).symm.trans h)
  exact branchTarget_aligned hpc (branchByteOffset_aligned _)

theorem nextPosition_aligned {pc : Word} {answer : Option Word} (hpc : pc.toNat % 4 = 0)
    (h : ∀ t, answer = some t → t.toNat % 4 = 0) : (nextPosition pc answer).toNat % 4 = 0 := by
  cases answer with
  | some t => exact h t rfl
  | none =>
    simp only [nextPosition, BitVec.toNat_add, BitVec.toNat_ofNat]
    omega

/-- The block's output at an aligned position is sound. -/
theorem outputAt_sound (m : Memory) {pc : Word} (hpc : pc.toNat % 4 = 0) : CallOutput.Sound (outputAt m pc) := by
  refine ⟨decodeRecord_sound _, ?_, fun t ht => aligned_of_resolve hpc ht⟩
  simp [outputAt, resolve_isSome, isBranchRecord_decodeRecord, variantOf_decodeRecord]

/-- Settles O47: the one output a step adds is sound, and its answer and 4 further are both aligned. -/
theorem everyStepKeepsTheWalkInvariant : Obligations.EveryStepKeepsTheWalkInvariant := by
  intro s t hinv hstep
  have hsound : CallOutput.Sound (outputAt s.image s.pc) := outputAt_sound s.image hinv.aligned
  have ⟨_, _, htarget⟩ := hsound
  obtain rfl := eq_of_step_eq_next hstep
  exact {
    armMode := hinv.armMode
    aligned := nextPosition_aligned hinv.aligned htarget
    imageWf := hinv.imageWf
    imageInside := hinv.imageInside
    outputsSound := List.forall_mem_append.mpr ⟨hinv.outputsSound, List.forall_mem_singleton.mpr hsound⟩ }

end Sys2Proof.Machine
end

section
/-! PROOFS. O49. Along a walk only the position moves and outputs are appended. -/

namespace Sys2Proof.Machine

/-- What a walk from `s` to `t` may change: the position, and the outputs by the block's outputs on words of the image. -/
def WalkFrame (s t : State) : Prop :=
  t.image = s.image ∧ t.imageLen = s.imageLen ∧ t.inThumbMode = s.inThumbMode ∧
  ∃ added : List CallOutput, t.emitted = s.emitted ++ added ∧ ∀ o ∈ added, ∃ pc : Word, o = outputAt s.image pc

theorem walkFrame_refl (s : State) : WalkFrame s s :=
  ⟨rfl, rfl, rfl, [], by simp⟩

theorem walkFrame_of_step {s t u : State} (h : step s = .next t) (htu : WalkFrame t u) : WalkFrame s u := by
  obtain rfl := eq_of_step_eq_next h
  obtain ⟨himage, hlen, hmode, added, hemitted, hadded⟩ := htu
  exact ⟨himage, hlen, hmode, outputAt s.image s.pc :: added, by simpa using hemitted,
    List.forall_mem_cons.mpr ⟨⟨s.pc, rfl⟩, hadded⟩⟩

theorem walk_frame (fuel : Nat) (s : State) : WalkFrame s (walk fuel s).state := by
  induction fuel generalizing s with
  | zero => exact walkFrame_refl s
  | succ fuel ih =>
    unfold walk
    split
    next t hstep => exact walkFrame_of_step hstep (ih t)
    next => exact walkFrame_refl s
    next => exact walkFrame_refl s

/-- Settles O49, by induction on the fuel: each step adds the block's output on the word at its position, and the step
that ends the walk leaves the state it found. -/
theorem walksLeaveImageAndModeAndExtendOutputs : Obligations.WalksLeaveImageAndModeAndExtendOutputs :=
  walk_frame

end Sys2Proof.Machine
end

section
/-! PROOFS. O30. The four bytes of a word, by concatenation. -/

namespace Sys2Proof

open Machine

/-- The assembly of four bytes is their concatenation, the highest offset in the high bits (20_memory.md R41). -/
theorem assembleWord_eq_append (b0 b1 b2 b3 : Byte) : assembleWord b0 b1 b2 b3 = b3 ++ b2 ++ b1 ++ b0 := by
  apply BitVec.eq_of_getLsbD_eq
  intro i hi
  simp only [assembleWord, BitVec.getLsbD_or, BitVec.getLsbD_shiftLeft, BitVec.getLsbD_setWidth, BitVec.getLsbD_append]
  interval_cases i <;> simp

theorem toNat_assembleWord (b0 b1 b2 b3 : Byte) :
    (assembleWord b0 b1 b2 b3).toNat = b0.toNat + 2 ^ 8 * b1.toNat + 2 ^ 16 * b2.toNat + 2 ^ 24 * b3.toNat := by
  rw [assembleWord_eq_append]
  simp only [toNat_append_eq_add]
  omega

/-- The bytes of the word assembled from four bytes are those bytes. -/
theorem bytes_assembleWord (b0 b1 b2 b3 : Byte) :
    let w := assembleWord b0 b1 b2 b3
    w.extractLsb' 0 8 = b0 ∧ w.extractLsb' 8 8 = b1 ∧ w.extractLsb' 16 8 = b2 ∧ w.extractLsb' 24 8 = b3 := by
  rw [assembleWord_eq_append]
  simp (disch := decide) only [extract_append_high, extract_append_low]
  exact ⟨extract_self _, extract_self _, extract_self _, extract_self _⟩

/-- The condition of the word assembled from four bytes is the upper half of the last (R61). -/
theorem condOf_assembleWord (b0 b1 b2 b3 : Byte) : condOf (assembleWord b0 b1 b2 b3) = b3.extractLsb' 4 4 := by
  rw [assembleWord_eq_append]
  simp (disch := decide) only [condOf, extract_append_high]

/-- Settles O30: the read assembles the four bytes, and a step that goes on fetched the assembled word. -/
theorem wordReadIsLittleEndian : Obligations.WordReadIsLittleEndian := by
  refine ⟨fun m off => ?_, fun s t h => ?_, by decide⟩
  · obtain ⟨h0, h1, h2, h3⟩ := bytes_assembleWord (m.read off) (m.read (off + 1)) (m.read (off + 2)) (m.read (off + 3))
    exact ⟨h0, h1, h2, h3, toNat_assembleWord .., condOf_assembleWord ..⟩
  · exact h.trans (exec_of_step_eq_next h).symm

end Sys2Proof
end

section
/-! PROOFS. O31, O32, O44. What an image holds after a load, and that its bytes determine it. -/

namespace Sys2Proof.Machine

/-- A read in the range of a load gives the byte loaded there. -/
theorem read_load_inside {m : Memory} (h : Memory.wf m = true) (off : Nat) {bs : List Byte} {i : Nat}
    (hi : i < bs.length) : Memory.read (Memory.load m off bs) (off + i) = bs[i] := by
  simp [read_load h, hi]

/-- A load leaves every offset outside its range as it was. -/
theorem read_load_outside {m : Memory} (h : Memory.wf m = true) {off off' : Nat} {bs : List Byte}
    (ho : off' < off ∨ off + bs.length ≤ off') : Memory.read (Memory.load m off bs) off' = Memory.read m off' := by
  rw [read_load h]
  split
  · rw [List.getElem?_eq_none (by omega), Option.getD_none]
  · rfl

/-- Settles O31: the boot image is the load of the buffer at offset 0 into the empty image. -/
theorem bootImageHoldsItsBytes : Obligations.BootImageHoldsItsBytes := by
  intro bytes initialPc
  refine ⟨fun off h => ?_, rfl, load_wf 0 bytes wf_nil, fun c hc => ?_, rfl, rfl, rfl⟩
  · simpa using read_load_inside wf_nil 0 h
  · simpa using mem_load hc

/-- A canonical image lists its first offset, so its byte there is not the unlisted one. -/
theorem read_head_ne_unlisted {c : Host.Cell} {m : Memory} {low : Nat} (h : Memory.wfFrom (c :: m) low = true) :
    Memory.read (c :: m) c.1 ≠ Config.unlistedByte := by
  obtain ⟨-, hb, -⟩ := wfFrom_cons.mp h
  rwa [read_cons, if_pos rfl]

/-- The first offset of one canonical image is not below that of another that reads alike. -/
theorem head_le_of_read_eq {c c' : Host.Cell} {m m' : Memory} {low low' : Nat}
    (h : Memory.wfFrom (c :: m) low = true) (h' : Memory.wfFrom (c' :: m') low' = true)
    (hread : ∀ off, Memory.read (c :: m) off = Memory.read (c' :: m') off) : c'.1 ≤ c.1 := by
  by_contra hlt
  have hfrom : Memory.wfFrom (c' :: m') c'.1 = true := wfFrom_cons.mpr ⟨le_rfl, (wfFrom_cons.mp h').2⟩
  exact read_head_ne_unlisted h ((hread c.1).trans (read_below hfrom (by omega)))

/-- Images in canonical form, from whatever offsets, that read alike are equal: their first entries agree, and so does
what is left. -/
theorem eq_of_read_eq {m m' : Memory} {low low' : Nat} (h : Memory.wfFrom m low = true)
    (h' : Memory.wfFrom m' low' = true) (hread : ∀ off, Memory.read m off = Memory.read m' off) : m = m' := by
  induction m generalizing m' low low' with
  | nil =>
    cases m' with
    | nil => rfl
    | cons c' m' => exact absurd (hread c'.1).symm (read_head_ne_unlisted h')
  | cons c m ih =>
    cases m' with
    | nil => exact absurd (hread c.1) (read_head_ne_unlisted h)
    | cons c' m' =>
      obtain ⟨a, b⟩ := c
      obtain ⟨a', b'⟩ := c'
      obtain rfl : a = a' :=
        le_antisymm (head_le_of_read_eq h' h fun off => (hread off).symm) (head_le_of_read_eq h h' hread)
      obtain rfl : b = b' := by simpa [read_cons] using hread a
      obtain ⟨-, -, hm⟩ := wfFrom_cons.mp h
      obtain ⟨-, -, hm'⟩ := wfFrom_cons.mp h'
      have htail : m = m' := ih hm hm' fun off => by
        by_cases ho : a = off
        · subst ho
          rw [read_below hm (Nat.lt_succ_self a), read_below hm' (Nat.lt_succ_self a)]
        · simpa [read_cons, ho] using hread off
      rw [htail]

/-- Settles O32: the canonical form is the case of lowest offset 0. -/
theorem canonicalImagesWithEqualBytesAreEqual : Obligations.CanonicalImagesWithEqualBytesAreEqual :=
  fun _ _ h h' hread => eq_of_read_eq h h' hread

/-- The word read where the bytes of a word were loaded is that word. -/
theorem readWord_load_wordBytes {m : Memory} (h : Memory.wf m = true) (off : Nat) (w : Word) :
    Memory.readWord (Memory.load m off (wordBytes w)) off = w := by
  simp [Memory.readWord, read_load h, wordBytes, assembleWord_wordBytes]

theorem decodeTableWord_eq_some {nbits : Nat} (h : nbits ≤ 32) (w : Nat) :
    decodeTableWord nbits w = some (decodeWord (tableWord nbits w)) := by
  simp [decodeTableWord, decodeBytes_wordBytes, h]

/-- In ARM mode at an aligned position the fetch reads the word placed there: the image is long enough by then. -/
theorem fetch_withFetchWord {s : State} (hmode : s.inThumbMode = false) (haligned : s.pc.toNat % 4 = 0)
    (hwf : Memory.wf s.image = true) (nbits w : Nat) :
    fetch (s.withFetchWord nbits w) = .ok (tableWord nbits w) :=
  fetch_eq_ok_iff.mpr ⟨hmode, haligned, le_max_right .., readWord_load_wordBytes hwf ..⟩

/-- Settles O44: the fetch reads the placed word back, and the load touches only the four bytes at the position. -/
theorem placedWordIsTheNextInstruction : Obligations.PlacedWordIsTheNextInstruction := by
  intro s nbits w hbits hmode haligned hwf
  exact ⟨_, decodeTableWord_eq_some hbits w, step_of_fetch (fetch_withFetchWord hmode haligned hwf nbits w),
    readWord_load_wordBytes hwf .., rfl, rfl, rfl, load_wf _ _ hwf, fun off ho => read_load_outside hwf ho⟩

end Sys2Proof.Machine
end

section
/-! PROOFS. Words in pieces: neighbouring fields join, and a mask acts on each field by itself. -/

namespace Sys2Proof

/-- Neighbouring fields of a word, put together again. -/
theorem extract_append_extract {n : Nat} (w : BitVec n) (hi lo len' len : Nat) (h : hi = lo + len) :
    w.extractLsb' hi len' ++ w.extractLsb' lo len = w.extractLsb' lo (len' + len) :=
  BitVec.extractLsb'_append_extractLsb'_eq_extractLsb' h

/-- A flag of a word is the field of that one bit. -/
theorem ofBool_getLsbD {n : Nat} (w : BitVec n) (i : Nat) : BitVec.ofBool (w.getLsbD i) = w.extractLsb' i 1 := by
  ext j hj
  obtain rfl : j = 0 := by omega
  simp [BitVec.getElem_extractLsb']

/-- A bit of a concatenation that lies in its low part. -/
theorem getLsbD_append_low {m n : Nat} (x : BitVec m) (y : BitVec n) (i : Nat) (h : i < n) :
    (x ++ y).getLsbD i = y.getLsbD i := by
  rw [BitVec.getLsbD_append, if_pos h]

/-- A mask on a concatenation, part by part. -/
theorem and_append_eq {m n : Nat} {x x' a : BitVec m} {y y' b : BitVec n} (hx : x &&& x' = a) (hy : y &&& y' = b) :
    (x ++ y) &&& (x' ++ y') = a ++ b := by
  rw [BitVec.and_append, hx, hy]

/-- A word is its condition before its lower 28 bits (30_encoding.md R61). -/
theorem condOf_append_low (w : Word) : condOf w ++ w.extractLsb' 0 28 = w := by
  simp (disch := decide) only [condOf, extract_append_extract]
  exact extract_self w

/-- A word is its condition, the bits 27–4 that spell the BX pattern, and a register (R63). -/
theorem condOf_append_pattern_rmOf (w : Word) : condOf w ++ w.extractLsb' 4 24 ++ rmOf w = w := by
  simp (disch := decide) only [condOf, rmOf, extract_append_extract]
  exact extract_self w

/-- A word from its class bits and bits 7 and 4, which all but the BX pattern test, and the bits beside these. -/
def joinSelector (c : BitVec 3) (b7 b4 : Bool) (cond : Cond) (mid : BitVec 17) (type : BitVec 2) (rm : RegIdx) : Word :=
  cond ++ c ++ mid ++ BitVec.ofBool b7 ++ type ++ BitVec.ofBool b4 ++ rm

theorem joinSelector_fields (w : Word) :
    joinSelector (classOf w) (w.getLsbD 7) (w.getLsbD 4) (condOf w) (w.extractLsb' 8 17) (typeOf w) (rmOf w) = w := by
  unfold joinSelector
  simp (disch := decide) only [condOf, classOf, typeOf, rmOf, ofBool_getLsbD, extract_append_extract]
  exact extract_self w

end Sys2Proof
end

section
/-! PROOFS. O4, O5, O6, O9, O10, O51. The classifier in the class bits, bits 7 and 4 and the BX pattern. -/

namespace Sys2Proof

open Machine

/-- The variant in the class bits 27–25, whether the word is a BX, and bits 7 and 4 (30_encoding.md R82). -/
def variantOfBits (c : BitVec 3) (bx b7 b4 : Bool) : Variant :=
  if c = 0b101#3 then .branch
  else if c = 0b001#3 then .dataProcessing
  else if c = 0b000#3 then
    if bx then .branchExchange else if b7 && b4 then .unclassified else .dataProcessing
  else if c = 0b011#3 then
    if b4 then .undefined else .unclassified
  else .unclassified

/-- The classifier reads no more of a word than these bits. -/
theorem classify_eq_variantOfBits (w : Word) :
    classify w = variantOfBits (classOf w) (isBX w) (w.getLsbD 7) (w.getLsbD 4) := by
  have htable : ∀ (c : BitVec 3) (bx b7 b4 : Bool), (bx = true → c = 0b000#3) →
      (if c == 0b101#3 then .branch else if bx then .branchExchange
        else if c == 0b001#3 || (c == 0b000#3 && !bx && !(b7 && b4)) then .dataProcessing
        else if c == 0b011#3 && b4 then .undefined else .unclassified) = variantOfBits c bx b7 b4 := by
    decide
  unfold classify isBranch isDP isUndef
  rw [reservedNibble_bits]
  exact htable _ _ _ _ class_of_isBX

theorem isBX_iff_pattern (w : Word) : isBX w = true ↔ w.extractLsb' 4 24 = 0b000100101111111111110001#24 :=
  beq_iff_eq

theorem isBX_of_bit7 {w : Word} (h : w.getLsbD 7 = true) : isBX w = false := by
  by_contra hbx
  have hbit := congrArg (BitVec.getLsbD · 3) ((isBX_iff_pattern w).mp (by simpa using hbx))
  rw [BitVec.getLsbD_extractLsb', h] at hbit
  contradiction

/-- Settles O9: class by class. -/
theorem classBitsGiveTheVariant : Obligations.ClassBitsGiveTheVariant := by
  intro w
  rw [classify_eq_variantOfBits]
  simp only [← isBX_iff_pattern, ← Bool.and_eq_true]
  show variantOfBits (w.extractLsb' 25 3) _ _ _ = _
  have hclass : ∀ c : BitVec 3, c = 0#3 ∨ c = 1#3 ∨ c = 2#3 ∨ c = 3#3 ∨ c = 4#3 ∨ c = 5#3 ∨ c = 6#3 ∨ c = 7#3 := by
    decide
  rcases hclass (w.extractLsb' 25 3) with h | h | h | h | h | h | h | h <;> rw [h] <;> rfl

/-! The predicates of R68 to R71, each with its class bits and its variant. -/

theorem class_of_isBranch {w : Word} (h : isBranch w = true) : classOf w = 0b101#3 := beq_iff_eq.mp h

theorem class_of_isUndef {w : Word} (h : isUndef w = true) : classOf w = 0b011#3 ∧ w.getLsbD 4 = true := by
  simpa [isUndef] using h

theorem bits_of_isDP {w : Word} (h : isDP w = true) :
    classOf w = 0b001#3 ∨ classOf w = 0b000#3 ∧ isBX w = false ∧ (w.getLsbD 7 && w.getLsbD 4) = false := by
  rw [isDP, reservedNibble_bits] at h
  simpa only [Bool.or_eq_true, Bool.and_eq_true, beq_iff_eq, Bool.not_eq_true', and_assoc] using h

theorem variant_of_predicate {w : Word} {p : (Word → Bool) × Variant} (hp : p ∈ variantPredicates)
    (h : p.1 w = true) : p.2 = classify w := by
  simp only [variantPredicates, List.mem_cons, List.not_mem_nil, or_false] at hp
  rw [classify_eq_variantOfBits]
  rcases hp with rfl | rfl | rfl | rfl
  · rw [class_of_isBranch h]; rfl
  · rw [class_of_isBX h, show isBX w = true from h]; rfl
  · rcases bits_of_isDP h with hc | ⟨hc, hbx, hb⟩
    · rw [hc]; rfl
    · rw [hc, hbx, variantOfBits, hb]; rfl
  · obtain ⟨hc, h4⟩ := class_of_isUndef h
    rw [hc, h4]; rfl

theorem classify_of_no_predicate {w : Word} (h : ∀ p ∈ variantPredicates, p.1 w = false) :
    classify w = .unclassified := by
  simp only [variantPredicates, List.forall_mem_cons] at h
  obtain ⟨hb, hbx, hdp, hu, -⟩ := h
  simp [classify, hb, hbx, hdp, hu]

/-- Where the predicates that hold agree on a variant, the first of them gives it. -/
theorem firstMatch_eq {ps : List ((Word → Bool) × Variant)} {w : Word} {v : Variant}
    (h : ∀ p ∈ ps, p.1 w = true → p.2 = v) (hnone : (∀ p ∈ ps, p.1 w = false) → v = .unclassified) :
    firstMatch ps w = v := by
  induction ps with
  | nil => exact (hnone nofun).symm
  | cons p ps ih =>
    obtain ⟨hp, hps⟩ := List.forall_mem_cons.mp h
    unfold firstMatch
    split
    next hpw => exact hp hpw
    next hpw =>
      have hpw : p.1 w = false := by simpa using hpw
      exact ih hps fun hall => hnone (List.forall_mem_cons.mpr ⟨hpw, hall⟩)

/-- The loop of R73, with the variant found so far, ends in the variant on which the predicates that hold agree. -/
theorem foldl_lastMatch_eq {ps : List ((Word → Bool) × Variant)} {w : Word} {v : Variant} (u : Variant)
    (h : ∀ p ∈ ps, p.1 w = true → p.2 = v) (hnone : (∀ p ∈ ps, p.1 w = false) → v = u) :
    ps.foldl (fun v p => if p.1 w then p.2 else v) u = v := by
  induction ps generalizing u with
  | nil => exact (hnone nofun).symm
  | cons p ps ih =>
    obtain ⟨hp, hps⟩ := List.forall_mem_cons.mp h
    rw [List.foldl_cons]
    refine ih _ hps fun hall => ?_
    by_cases hpw : p.1 w = true
    · rw [if_pos hpw, hp hpw]
    · rw [if_neg hpw]
      exact hnone (List.forall_mem_cons.mpr ⟨by simpa using hpw, hall⟩)

/-- Settles O6: a predicate that holds names the classifier's variant, and the four variants differ; so no two hold, and
no order of trying them matters. -/
theorem predicatesExcludeEachOtherInAnyOrder : Obligations.PredicatesExcludeEachOtherInAnyOrder := by
  intro w
  have horder (order : List ((Word → Bool) × Variant)) (hperm : order.Perm variantPredicates) :
      firstMatch order w = classify w ∧ lastMatch order w = classify w := by
    have hsome (p) (hp : p ∈ order) (h : p.1 w = true) : p.2 = classify w :=
      variant_of_predicate (hperm.mem_iff.mp hp) h
    have hnone (h : ∀ p ∈ order, p.1 w = false) : classify w = .unclassified :=
      classify_of_no_predicate fun p hp => h p (hperm.mem_iff.mpr hp)
    exact ⟨firstMatch_eq hsome hnone, foldl_lastMatch_eq _ hsome hnone⟩
  have hdiffer : variantPredicates.Pairwise (fun p q => p.2 ≠ q.2) := by simp [variantPredicates]
  refine ⟨hdiffer.imp_of_mem fun hp hq hne h => ?_, (horder _ (.refl _)).2, horder⟩
  exact hne ((variant_of_predicate hp h.1).trans (variant_of_predicate hq h.2).symm)

/-- Settles O5: the two readings of the rejected nibbles agree, and class bits and bits 7 and 4 fix the variant. -/
theorem dataProcessingRejectsTheReservedNibbles : Obligations.DataProcessingRejectsTheReservedNibbles := by
  intro w
  have hnibbles : (w.extractLsb' 4 4 ≠ 0b1001#4 ∧ w.extractLsb' 4 4 ≠ 0b1011#4 ∧ w.extractLsb' 4 4 ≠ 0b1101#4 ∧
      w.extractLsb' 4 4 ≠ 0b1111#4) ↔ ¬(w.getLsbD 7 = true ∧ w.getLsbD 4 = true) := by
    have h := reservedNibble_bits w
    rw [← Bool.and_eq_true, ← h]
    simp [reservedNibble, and_assoc]
  refine ⟨fun hc => ?_, fun hc => ?_⟩
  · rw [classify_eq_variantOfBits, show classOf w = _ from hc]; rfl
  · have hv : classify w = variantOfBits 0b000#3 (isBX w) (w.getLsbD 7) (w.getLsbD 4) := by
      rw [classify_eq_variantOfBits, show classOf w = _ from hc]
    have hdp : classify w = .dataProcessing ↔ isBX w = false ∧ ¬(w.getLsbD 7 = true ∧ w.getLsbD 4 = true) := by
      rw [hv, ← Bool.and_eq_true]
      cases isBX w <;> simp [variantOfBits]
    refine ⟨hdp.trans (and_congr_right fun _ => hnibbles.symm), hdp, fun ⟨h7, h4⟩ => ?_⟩
    rw [hv, isBX_of_bit7 h7, h7, h4]
    rfl

/-! The predicates and the record's payload do not read the condition. -/

theorem predicates_append (c c' : Cond) (x : BitVec 28) :
    isBranch (c ++ x) = isBranch (c' ++ x) ∧ isBX (c ++ x) = isBX (c' ++ x) ∧
    isDP (c ++ x) = isDP (c' ++ x) ∧ isUndef (c ++ x) = isUndef (c' ++ x) := by
  simp (disch := decide) only [isBranch, isBX, isDP, isUndef, classOf, extract_append_low, getLsbD_append_low, and_self]

theorem classify_append (c c' : Cond) (x : BitVec 28) : classify (c ++ x) = classify (c' ++ x) := by
  obtain ⟨hb, hbx, hdp, hu⟩ := predicates_append c c' x
  rw [classify, hb, hbx, hdp, hu, classify]

theorem decodeBody_append (c c' : Cond) (x : BitVec 28) (v : Variant) :
    decodeBody (c ++ x) v = decodeBody (c' ++ x) v := by
  cases v with
  | branch => simp (disch := decide) only [decodeBody, linkBit, imm24Of, extract_append_low, getLsbD_append_low]
  | branchExchange => simp (disch := decide) only [decodeBody, rmOf, extract_append_low]
  | dataProcessing =>
    simp (disch := decide) only [decodeBody, operand2Of, iBit, opcodeOf, sBit, rnOf, rdOf, rotOf, imm8Of, shiftImmOf,
      rsOf, typeOf, byRegBit, rmOf, extract_append_low, getLsbD_append_low]
  | undefined | unclassified => simp only [decodeBody]

/-- The resolver reads the payload and the position only (40_decode_pipeline.md R104). -/
theorem resolve_eq_of_body_eq {rec rec' : Decoded} (h : rec.body = rec'.body) (pc : Word) :
    resolve rec pc = resolve rec' pc := by
  rw [resolve, h, resolve]

/-- Settles O10: both words are a condition before the same 28 bits. -/
theorem conditionBitsNeitherChooseNorChangeTheBody : Obligations.ConditionBitsNeitherChooseNorChangeTheBody := by
  intro w w' pc h
  have hclassify : classify w = classify w' := by
    rw [← condOf_append_low w, ← condOf_append_low w', h]
    exact classify_append ..
  have hbody : (decodeRecord w).body = (decodeRecord w').body := by
    rw [decodeRecord_body hclassify, decodeRecord_body rfl]
    conv_lhs => rw [← condOf_append_low w, h]
    conv_rhs => arg 1; rw [← condOf_append_low w']
    exact decodeBody_append ..
  exact ⟨hclassify, hbody, resolve_eq_of_body_eq hbody pc⟩

/-- Settles O51: the class bits of each predicate, and predicates on a condition before the same 28 bits. -/
theorem predicatesTestTheClassAndNeverTheCondition : Obligations.PredicatesTestTheClassAndNeverTheCondition := by
  intro w
  refine ⟨rfl, class_of_isBranch, class_of_isBX, fun h => ?_, fun h => (class_of_isUndef h).1, fun w' h => ?_⟩
  · exact (bits_of_isDP h).elim .inr fun ⟨hc, _⟩ => .inl hc
  · rw [← condOf_append_low w, ← condOf_append_low w', h]
    exact predicates_append ..

/-! The BX pattern as a mask, and the words beside it (R69). -/

/-- The BX row's mask keeps bits 27–4. -/
theorem isBX_iff_mask (w : Word) : isBX w = true ↔ w &&& 0x0FFFFFF0#32 = 0x012FFF10#32 := by
  have hmask : w &&& 0x0FFFFFF0#32 = 0#4 ++ w.extractLsb' 4 24 ++ 0#4 := by
    conv_lhs => rw [← condOf_append_pattern_rmOf w]
    exact and_append_eq (and_append_eq BitVec.and_zero BitVec.and_allOnes) BitVec.and_zero
  rw [isBX_iff_pattern, hmask, show 0x012FFF10#32 = 0#4 ++ 0b000100101111111111110001#24 ++ 0#4 from rfl,
    BitVec.append_left_inj, BitVec.append_right_inj]

theorem isBX_flip {w : Word} {k : Nat} (hlo : 4 ≤ k) (hhi : k ≤ 27) (h : isBX w = true) :
    isBX (w ^^^ (1#32 <<< k)) = false := by
  by_contra hflip
  have hsame : (w ^^^ (1#32 <<< k)).extractLsb' 4 24 = w.extractLsb' 4 24 :=
    ((isBX_iff_pattern _).mp (by simpa using hflip)).trans ((isBX_iff_pattern w).mp h).symm
  have hbit := congrArg (BitVec.getLsbD · (k - 4)) hsame
  simp [show k - 4 < 24 by omega, show 4 + (k - 4) = k by omega, show k < 32 by omega] at hbit

/-- The first predicate in the order of R72 decides, and Unclassified is the rest. -/
theorem classify_iff (w : Word) :
    (classify w = .branch ↔ isBranch w = true) ∧
    (classify w = .branchExchange ↔ isBranch w = false ∧ isBX w = true) ∧
    (classify w = .dataProcessing ↔ isBranch w = false ∧ isBX w = false ∧ isDP w = true) ∧
    (classify w = .undefined ↔ isBranch w = false ∧ isBX w = false ∧ isDP w = false ∧ isUndef w = true) ∧
    (classify w = .unclassified ↔ isBranch w = false ∧ isBX w = false ∧ isDP w = false ∧ isUndef w = false) := by
  unfold classify
  cases isBranch w
  · cases isBX w
    · cases isDP w
      · cases isUndef w <;> decide
      · simp
    · simp
  · simp

/-- Settles O4: each predicate in the word's bits, then the order of R72. -/
theorem classifierFollowsThePredicatesOnTheWordsBits :
    Obligations.ClassifierFollowsThePredicatesOnTheWordsBits := by
  intro w
  exact ⟨beq_iff_eq, isBX_iff_mask w, isBX_iff_pattern w, fun k hlo hhi h => isBX_flip hlo hhi h,
    ⟨class_of_isUndef, fun ⟨hc, h4⟩ => by simp [isUndef, classOf, hc, h4]⟩, classify_iff w⟩

end Sys2Proof
end

section
/-! PROOFS. O1, O2. Decoder and encoder undo each other, format by format. -/

namespace Sys2Proof

open Machine

/-! From the instruction to its word and back. -/

theorem decodeWord_encodeB (c : Cond) (l : Bool) (n : BitVec 24) :
    decodeWord (encodeB c l n) = if l then .bl c n else .b c n := by
  simp [decodeWord, classify_encodeB]

theorem decodeWord_encodeBX (c : Cond) (rm : RegIdx) : decodeWord (encodeBX c rm) = .bx c rm := by
  simp [decodeWord, classify_encodeBX]

theorem decodeWord_encodeI (c : Cond) (op : BitVec 4) (s : Bool) (rn rd : RegIdx) (o : ImmOperand) :
    decodeWord (encodeI c op s rn rd o) = decodeI (encodeI c op s rn rd o) := by
  simp [decodeWord, classify_encodeI, decodeDP]

theorem decodeWord_encodeRI (c : Cond) (op : BitVec 4) (s : Bool) (rn rd : RegIdx) (o : ShiftImmOperand) :
    decodeWord (encodeRI c op s rn rd o) = decodeRI (encodeRI c op s rn rd o) := by
  simp [decodeWord, classify_encodeRI, decodeDP]

theorem decodeWord_encodeRR {c : Cond} {op : BitVec 4} {s : Bool} {rn rd : RegIdx} {o : ShiftRegOperand}
    (h : ¬(op = 0b1001#4 ∧ s = false ∧ spellsBX rn rd o = true)) :
    decodeWord (encodeRR c op s rn rd o) = decodeRR (encodeRR c op s rn rd o) := by
  have hbx : isBX (encodeRR c op s rn rd o) = false := by
    by_contra hbx
    exact h (isBX_encodeRR (by simpa using hbx))
  simp [decodeWord, classify_encodeRR hbx, decodeDP]

@[simp] theorem immFields_encodeI (c : Cond) (op : BitVec 4) (s : Bool) (rn rd : RegIdx) (o : ImmOperand) :
    immFields (encodeI c op s rn rd o) = o := by
  simp [immFields]

@[simp] theorem shiftImmFields_encodeRI (c : Cond) (op : BitVec 4) (s : Bool) (rn rd : RegIdx) (o : ShiftImmOperand) :
    shiftImmFields (encodeRI c op s rn rd o) = o := by
  simp [shiftImmFields, shiftKindOf_bits]

@[simp] theorem shiftRegFields_encodeRR (c : Cond) (op : BitVec 4) (s : Bool) (rn rd : RegIdx) (o : ShiftRegOperand) :
    shiftRegFields (encodeRR c op s rn rd o) = o := by
  simp [shiftRegFields, shiftKindOf_bits]

/-- The bits 24–5 and 3–0 that an UNDEFINED word carries undecoded (R67). -/
theorem decodeWord_encodeUnd (c : Cond) (hi : BitVec 20) (lo : BitVec 4) :
    decodeWord (encodeUnd c hi lo) = .undefined c hi lo := by
  have hhi : (encodeUnd c hi lo).extractLsb' 5 20 = hi := by
    simp (disch := decide) only [encodeUnd, extract_append_high, extract_append_low]
    exact extract_self _
  have hlo : (encodeUnd c hi lo).extractLsb' 0 4 = lo := by
    simp (disch := decide) only [encodeUnd, extract_append_low]
    exact extract_self _
  simp [decodeWord, classify_encodeUnd, hhi, hlo]

/-- The space that R81 and R82 leave to Unclassified is what the classifier leaves to it. -/
theorem inUnclassifiedSpace_eq (w : Word) : inUnclassifiedSpace w = (classify w == .unclassified) := by
  have htable : ∀ (c : BitVec 3) (bx b7 b4 : Bool), (bx = true → c = 0b000#3) → (b7 = true → bx = false) →
      ((c == 0b000#3 && b7 && b4) || c == 0b010#3 || (c == 0b011#3 && !b4) || c == 0b100#3 || c == 0b110#3 ||
        c == 0b111#3) = (variantOfBits c bx b7 b4 == .unclassified) := by
    decide
  rw [classify_eq_variantOfBits]
  exact htable _ _ _ _ class_of_isBX isBX_of_bit7

theorem decode_encode {i : Instr} (h : i.wf = true) : decodeWord (encode i) = i := by
  cases i with
  | b | bl => exact decodeWord_encodeB ..
  | bx => exact decodeWord_encodeBX ..
  | undefined => exact decodeWord_encodeUnd ..
  | unclassified w =>
    have hv : classify w = .unclassified := by simpa [Instr.wf, inUnclassifiedSpace_eq] using h
    simp [encode, decodeWord, hv]
  | psrxRR c rn rd o =>
    have hbx : spellsBX rn rd o = false := by simpa [Instr.wf] using h
    exact (decodeWord_encodeRR (by simp [hbx])).trans (by simp [decodeRR, aluOpcodeOf])
  | andI | eorI | subI | rsbI | addI | adcI | sbcI | rscI | tstI | teqI | psrxI | cmpI | cmnI | orrI | movI | bicI
  | mvnI => exact (decodeWord_encodeI ..).trans (by simp [decodeI, aluOpcodeOf])
  | andRI | eorRI | subRI | rsbRI | addRI | adcRI | sbcRI | rscRI | tstRI | teqRI | psrxRI | cmpRI | cmnRI | orrRI
  | movRI | bicRI | mvnRI => exact (decodeWord_encodeRI ..).trans (by simp [decodeRI, aluOpcodeOf])
  | andRR | eorRR | subRR | rsbRR | addRR | adcRR | sbcRR | rscRR | tstRR | teqRR | cmpRR | cmnRR | orrRR
  | movRR | bicRR | mvnRR => exact (decodeWord_encodeRR (by simp)).trans (by simp [decodeRR, aluOpcodeOf])

/-- Settles O1: on words, and on the bytes of words. -/
theorem decodeOfEncodeGivesTheInstructionBack : Obligations.DecodeOfEncodeGivesTheInstructionBack := by
  intro i h
  exact ⟨decode_encode h, by rw [decodeBytes_wordBytes, decode_encode h]⟩

/-! From the word to its instruction and back. -/

theorem encodeB_fields {w : Word} (h : classOf w = 0b101#3) : encodeB (condOf w) (linkBit w) (imm24Of w) = w := by
  rw [encodeB, ← h]
  simp (disch := decide) only [condOf, classOf, linkBit, imm24Of, ofBool_getLsbD, extract_append_extract]
  exact extract_self w

theorem encodeBX_fields {w : Word} (h : isBX w = true) : encodeBX (condOf w) (rmOf w) = w := by
  rw [encodeBX, ← isBX_bits h]
  exact condOf_append_pattern_rmOf w

theorem encodeI_fields {w : Word} (h : classOf w = 0b001#3) :
    encodeI (condOf w) (opcodeOf w) (sBit w) (rnOf w) (rdOf w) (immFields w) = w := by
  rw [encodeI, ← h]
  simp (disch := decide) only [condOf, classOf, opcodeOf, sBit, rnOf, rdOf, immFields, rotOf, imm8Of, ofBool_getLsbD,
    extract_append_extract]
  exact extract_self w

theorem encodeRI_fields {w : Word} (h : classOf w = 0b000#3) (h4 : w.getLsbD 4 = false) :
    encodeRI (condOf w) (opcodeOf w) (sBit w) (rnOf w) (rdOf w) (shiftImmFields w) = w := by
  have hbit4 : 0b0#1 = w.extractLsb' 4 1 := by rw [← ofBool_getLsbD, h4]; rfl
  rw [encodeRI, ← h, hbit4]
  simp (disch := decide) only [condOf, classOf, opcodeOf, sBit, rnOf, rdOf, shiftImmFields, shiftImmOf, typeOf, rmOf,
    shiftKindBits_of, ofBool_getLsbD, extract_append_extract]
  exact extract_self w

theorem encodeRR_fields {w : Word} (h : classOf w = 0b000#3) (h7 : w.getLsbD 7 = false) (h4 : w.getLsbD 4 = true) :
    encodeRR (condOf w) (opcodeOf w) (sBit w) (rnOf w) (rdOf w) (shiftRegFields w) = w := by
  have hbit7 : 0b0#1 = w.extractLsb' 7 1 := by rw [← ofBool_getLsbD, h7]; rfl
  have hbit4 : 0b1#1 = w.extractLsb' 4 1 := by rw [← ofBool_getLsbD, h4]; rfl
  rw [encodeRR, ← h, hbit7, hbit4]
  simp (disch := decide) only [condOf, classOf, opcodeOf, sBit, rnOf, rdOf, shiftRegFields, rsOf, typeOf, rmOf,
    shiftKindBits_of, ofBool_getLsbD, extract_append_extract]
  exact extract_self w

theorem encodeUnd_fields {w : Word} (h : classOf w = 0b011#3) (h4 : w.getLsbD 4 = true) :
    encodeUnd (condOf w) (w.extractLsb' 5 20) (w.extractLsb' 0 4) = w := by
  have hbit4 : 0b1#1 = w.extractLsb' 4 1 := by rw [← ofBool_getLsbD, h4]; rfl
  rw [encodeUnd, ← h, hbit4]
  simp (disch := decide) only [condOf, classOf, extract_append_extract]
  exact extract_self w

/-! The three forms of a data-processing word. -/

/-- The form that decodes a data-processing word, with the bits of R64 to R66 that choose it. -/
theorem decodeWord_dataProcessing {w : Word} (h : classify w = .dataProcessing) :
    (classOf w = 0b001#3 ∧ decodeWord w = decodeI w) ∨
    (classOf w = 0b000#3 ∧ w.getLsbD 4 = false ∧ decodeWord w = decodeRI w) ∨
    (classOf w = 0b000#3 ∧ w.getLsbD 7 = false ∧ w.getLsbD 4 = true ∧ decodeWord w = decodeRR w) := by
  have hi : iBit w = (classOf w).getLsbD 0 := by simp [iBit, classOf]
  have hdecode : decodeWord w = decodeDP w := by simp [decodeWord, h]
  obtain ⟨-, -, hdp, -, -⟩ := classify_iff w
  obtain ⟨-, -, hdp⟩ := hdp.mp h
  rw [hdecode, decodeDP, hi]
  rcases bits_of_isDP hdp with hc | ⟨hc, -, hbits⟩
  · exact .inl ⟨hc, by rw [hc]; rfl⟩
  · cases h4 : w.getLsbD 4 with
    | false => exact .inr (.inl ⟨hc, rfl, by rw [hc, byRegBit, h4]; rfl⟩)
    | true => exact .inr (.inr ⟨hc, by simpa only [h4, Bool.and_true] using hbits, rfl, by rw [hc, byRegBit, h4]; rfl⟩)

/-- What each form decodes, the encoder writes with the word's own fields, opcode 1001 with the set-flags bit that told
TEQ from PSRX (R76). -/
theorem encode_decode_forms (w : Word) :
    encode (decodeI w) = encodeI (condOf w) (opcodeOf w) (sBit w) (rnOf w) (rdOf w) (immFields w) ∧
    encode (decodeRI w) = encodeRI (condOf w) (opcodeOf w) (sBit w) (rnOf w) (rdOf w) (shiftImmFields w) ∧
    encode (decodeRR w) = encodeRR (condOf w) (opcodeOf w) (sBit w) (rnOf w) (rdOf w) (shiftRegFields w) := by
  unfold decodeI decodeRI decodeRR
  have hop := aluOpcodeBits_of (opcodeOf w)
  generalize aluOpcodeOf (opcodeOf w) = o at hop ⊢
  rw [← hop]
  cases o with
  | teq => cases sBit w <;> exact ⟨rfl, rfl, rfl⟩
  | _ => exact ⟨rfl, rfl, rfl⟩

theorem encode_decode (w : Word) : encode (decodeWord w) = w := by
  obtain ⟨hI, hRI, hRR⟩ := encode_decode_forms w
  obtain ⟨hbranch, hbx, -, hundef, -⟩ := classify_iff w
  cases h : classify w with
  | branch =>
    have hfields := encodeB_fields (class_of_isBranch (hbranch.mp h))
    rw [decodeWord, h]
    generalize linkBit w = l at hfields ⊢
    cases l <;> exact hfields
  | branchExchange =>
    rw [decodeWord, h]
    exact encodeBX_fields (hbx.mp h).2
  | dataProcessing =>
    rcases decodeWord_dataProcessing h with ⟨hc, hd⟩ | ⟨hc, h4, hd⟩ | ⟨hc, h7, h4, hd⟩ <;> rw [hd]
    · exact hI.trans (encodeI_fields hc)
    · exact hRI.trans (encodeRI_fields hc h4)
    · exact hRR.trans (encodeRR_fields hc h7 h4)
  | undefined =>
    obtain ⟨-, -, -, hu⟩ := hundef.mp h
    obtain ⟨hc, h4⟩ := class_of_isUndef hu
    rw [decodeWord, h]
    exact encodeUnd_fields hc h4
  | unclassified =>
    rw [decodeWord, h]
    rfl

/-! What the decoder reads is well formed. -/

/-- A DP-RR word whose fields spell the BX pattern is a BX (R82). -/
theorem isBX_of_spellsBX {w : Word} (hc : classOf w = 0b000#3) (h7 : w.getLsbD 7 = false) (h4 : w.getLsbD 4 = true)
    (hop : opcodeOf w = 0b1001#4) (hs : sBit w = false)
    (hspells : spellsBX (rnOf w) (rdOf w) (shiftRegFields w) = true) : isBX w = true := by
  simp only [spellsBX, Bool.and_eq_true, beq_iff_eq] at hspells
  obtain ⟨⟨⟨hrn, hrd⟩, hrs⟩, hkind⟩ := hspells
  have htype : typeOf w = 0b00#2 := (shiftKindBits_of _).symm.trans (congrArg shiftKindBits hkind)
  have hpattern : classOf w ++ opcodeOf w ++ BitVec.ofBool (sBit w) ++ rnOf w ++ rdOf w ++ rsOf w ++
      BitVec.ofBool (w.getLsbD 7) ++ typeOf w ++ BitVec.ofBool (w.getLsbD 4) = w.extractLsb' 4 24 := by
    simp (disch := decide) only [classOf, opcodeOf, sBit, rnOf, rdOf, rsOf, typeOf, ofBool_getLsbD,
      extract_append_extract]
  rw [isBX_iff_pattern, ← hpattern, hc, hop, hs, hrn, hrd, show rsOf w = _ from hrs, h7, htype, h4]
  rfl

theorem wf_decodeI_decodeRI (w : Word) : (decodeI w).wf = true ∧ (decodeRI w).wf = true := by
  unfold decodeI decodeRI
  cases aluOpcodeOf (opcodeOf w) with
  | teq => cases sBit w <;> exact ⟨rfl, rfl⟩
  | _ => exact ⟨rfl, rfl⟩

theorem wf_decodeRR {w : Word} (hc : classOf w = 0b000#3) (h7 : w.getLsbD 7 = false) (h4 : w.getLsbD 4 = true)
    (hbx : isBX w = false) : (decodeRR w).wf = true := by
  unfold decodeRR
  have hop := aluOpcodeBits_of (opcodeOf w)
  cases haluop : aluOpcodeOf (opcodeOf w) with
  | teq =>
    rw [haluop] at hop
    cases hs : sBit w with
    | true => rfl
    | false =>
      have hspells : spellsBX (rnOf w) (rdOf w) (shiftRegFields w) = false := by
        by_contra hspells
        simp [isBX_of_spellsBX hc h7 h4 hop.symm hs (by simpa using hspells)] at hbx
      simp [Instr.wf, hspells]
  | _ => rfl

theorem wf_decode (w : Word) : (decodeWord w).wf = true := by
  cases h : classify w with
  | branch =>
    rw [decodeWord, h]
    cases linkBit w <;> rfl
  | dataProcessing =>
    obtain ⟨hI, hRI⟩ := wf_decodeI_decodeRI w
    obtain ⟨-, -, hdp, -, -⟩ := classify_iff w
    obtain ⟨-, hbx, -⟩ := hdp.mp h
    rcases decodeWord_dataProcessing h with ⟨-, hd⟩ | ⟨-, -, hd⟩ | ⟨hc, h7, h4, hd⟩ <;> rw [hd]
    · exact hI
    · exact hRI
    · exact wf_decodeRR hc h7 h4 hbx
  | branchExchange | undefined =>
    rw [decodeWord, h]
    rfl
  | unclassified =>
    rw [decodeWord, h]
    exact (inUnclassifiedSpace_eq w).trans (by rw [h]; rfl)

/-- Settles O2: format by format, by the variant of the word. -/
theorem encodeOfDecodeGivesTheWordBack : Obligations.EncodeOfDecodeGivesTheWordBack :=
  fun w => ⟨wf_decode w, encode_decode w⟩

end Sys2Proof
end

section
/-! PROOFS. O8. The rows of the opcode table beside BX and the last exclude each other, so the row that takes a word is
the first one, wherever it stands. -/

namespace Sys2Proof

/-- The word belongs to the row. -/
def TableRow.Takes (r : TableRow) (w : Word) : Prop := w &&& r.mask = r.value

theorem TableRow.Takes.of_eq {r : TableRow} {w w' : Word} (h : r.Takes w) (heq : w = w') : r.Takes w' :=
  heq ▸ h

/-- The rows ask for different values of some bit that both of them test. -/
def TableRow.Clash (r r' : TableRow) : Prop := r.mask &&& r'.mask &&& (r.value ^^^ r'.value) ≠ 0#32

theorem TableRow.Clash.not_takes {r r' : TableRow} {w : Word} (h : r.Clash r') (hr : r.Takes w) : ¬r'.Takes w := by
  intro hr'
  refine h (BitVec.eq_of_getLsbD_eq fun i _ => ?_)
  rw [← hr, ← hr']
  simp only [BitVec.getLsbD_and, BitVec.getLsbD_xor, BitVec.getLsbD_zero]
  cases w.getLsbD i <;> cases r.mask.getLsbD i <;> cases r'.mask.getLsbD i <;> rfl

theorem TableRow.clash_symm : Std.Symm TableRow.Clash where
  symm r r' h := by rwa [TableRow.Clash, BitVec.and_comm r'.mask, BitVec.xor_comm]

/-! The table in parts. -/

def bxRow : TableRow := ⟨"BX", .bx, 0x0FFFFFF0#32, 0x012FFF10#32⟩

def undefinedRow : TableRow := ⟨"UNDEFINED", .und, 0x0E000010#32, 0x06000010#32⟩

/-- The row that takes every word. -/
def lastRow : TableRow := ⟨"UNCLASSIFIED", .none, 0#32, 0#32⟩

/-- The rows whose masks reach no further than class, opcode, link or set-flags bit, and bits 7 and 4. -/
def narrowRows : List TableRow := branchRows.take 2 ++ (aluRowsLow ++ aluRowsHigh ++ [undefinedRow])

theorem narrowRows_clash : narrowRows.Pairwise TableRow.Clash := by
  unfold TableRow.Clash
  decide

theorem firstRow_append (rows rows' : List TableRow) (w : Word) :
    firstRow (rows ++ rows') w = (firstRow rows w).or (firstRow rows' w) :=
  List.find?_append

theorem firstRow_of_takes {r : TableRow} {w : Word} (h : r.Takes w) (rows : List TableRow) :
    firstRow (r :: rows) w = some r :=
  List.find?_cons_of_pos (by simpa [TableRow.Takes] using h)

theorem firstRow_of_not_takes {r : TableRow} {w : Word} (h : ¬r.Takes w) (rows : List TableRow) :
    firstRow (r :: rows) w = firstRow rows w :=
  List.find?_cons_of_neg (by simpa [TableRow.Takes] using h)

theorem firstRow_eq_none {rows : List TableRow} {w : Word} (h : ∀ r ∈ rows, ¬r.Takes w) : firstRow rows w = none :=
  List.find?_eq_none.mpr (by simpa [TableRow.Takes] using h)

/-- Of the narrow rows, one that takes the word is the first that does. -/
theorem firstRow_narrowRows {r : TableRow} {w : Word} (hmem : r ∈ narrowRows) (htakes : r.Takes w) :
    firstRow narrowRows w = some r := by
  cases h : firstRow narrowRows w with
  | none => simpa [htakes] using List.find?_eq_none.mp h r hmem (by simpa [TableRow.Takes] using htakes)
  | some r' =>
    have htakes' : r'.Takes w := by simpa [TableRow.Takes] using List.find?_some h
    have hmem' : r' ∈ narrowRows := List.mem_of_find?_eq_some h
    have := TableRow.clash_symm
    by_contra hne
    have hclash : r'.Clash r := narrowRows_clash.forall hmem' hmem fun heq => hne (congrArg some heq)
    exact hclash.not_takes htakes' htakes

theorem bxRow_takes_iff (w : Word) : bxRow.Takes w ↔ isBX w = true := (isBX_iff_mask w).symm

/-- A word that is no BX goes through the table as if the BX row were not in it. -/
theorem firstRow_opcodeTable {w : Word} (h : isBX w = false) :
    firstRow opcodeTable w = (firstRow narrowRows w).or (some lastRow) := by
  have hbx : ¬bxRow.Takes w := by simp [bxRow_takes_iff, h]
  have hlast : firstRow [lastRow] w = some lastRow := firstRow_of_takes (r := lastRow) BitVec.and_zero []
  have htable : opcodeTable =
      branchRows.take 2 ++ (bxRow :: (aluRowsLow ++ aluRowsHigh ++ [undefinedRow])) ++ [lastRow] := rfl
  rw [htable, firstRow_append, hlast, firstRow_append, firstRow_of_not_takes hbx, ← firstRow_append]
  rfl

/-- The two rows before the BX row are Branch rows, and take no BX word. -/
theorem firstRow_of_isBX {w : Word} (h : isBX w = true) : firstRow opcodeTable w = some bxRow := by
  have htakes : bxRow.Takes w := (bxRow_takes_iff w).mpr h
  have hclash : ∀ r ∈ branchRows.take 2, bxRow.Clash r := by
    unfold TableRow.Clash
    decide
  have htable : opcodeTable =
      branchRows.take 2 ++ bxRow :: (aluRowsLow ++ aluRowsHigh ++ [undefinedRow, lastRow]) := rfl
  rw [htable, firstRow_append, firstRow_eq_none fun r hr => (hclash r hr).not_takes htakes, firstRow_of_takes htakes]
  rfl

/-! The row of each format, and the words it takes. -/

/-- The table's name of a data-processing row, by opcode and set-flags bit (R75, R76). -/
def dpMnemonic (op : BitVec 4) (s : Bool) : String :=
  match aluOpcodeOf op with
  | .and => "AND" | .eor => "EOR" | .sub => "SUB" | .rsb => "RSB"
  | .add => "ADD" | .adc => "ADC" | .sbc => "SBC" | .rsc => "RSC"
  | .tst => "TST" | .teq => if s then "TEQ" else "PSRX" | .cmp => "CMP" | .cmn => "CMN"
  | .orr => "ORR" | .mov => "MOV" | .bic => "BIC" | .mvn => "MVN"

theorem decode_forms_row (w : Word) :
    (mnemonicOf (decodeI w) = dpMnemonic (opcodeOf w) (sBit w) ∧ formatOf (decodeI w) = .dpI) ∧
    (mnemonicOf (decodeRI w) = dpMnemonic (opcodeOf w) (sBit w) ∧ formatOf (decodeRI w) = .dpRI) ∧
    (mnemonicOf (decodeRR w) = dpMnemonic (opcodeOf w) (sBit w) ∧ formatOf (decodeRR w) = .dpRR) := by
  unfold decodeI decodeRI decodeRR dpMnemonic
  cases aluOpcodeOf (opcodeOf w) with
  | teq => cases sBit w <;> exact ⟨⟨rfl, rfl⟩, ⟨rfl, rfl⟩, ⟨rfl, rfl⟩⟩
  | _ => exact ⟨⟨rfl, rfl⟩, ⟨rfl, rfl⟩, ⟨rfl, rfl⟩⟩

/-- Only the rows of opcode 1001 test the set-flags bit: it tells TEQ from PSRX (R76). -/
def testsSetFlags (op : BitVec 4) : Bool := op == 0b1001#4

/-- The mask's upper 20 bits in a data-processing row: class, opcode and, where told, the set-flags bit. -/
def dpHeadMask (testsS : Bool) : BitVec 20 :=
  0#4 ++ BitVec.allOnes 3 ++ BitVec.allOnes 4 ++ BitVec.ofBool testsS ++ 0#4 ++ 0#4

theorem dpHead_and_mask (c : Cond) (class3 : BitVec 3) (op : BitVec 4) (s testsS : Bool) (rn rd : RegIdx) :
    (c ++ class3 ++ op ++ BitVec.ofBool s ++ rn ++ rd) &&& dpHeadMask testsS =
      0#4 ++ class3 ++ op ++ BitVec.ofBool (s && testsS) ++ 0#4 ++ 0#4 := by
  have hclass := and_append_eq (BitVec.and_zero (x := c)) (BitVec.and_allOnes (x := class3))
  have hopcode := and_append_eq hclass (BitVec.and_allOnes (x := op))
  have hs := and_append_eq hopcode (BitVec.ofBool_and_ofBool (b := s) (b' := testsS))
  exact and_append_eq (and_append_eq hs BitVec.and_zero) BitVec.and_zero

def rowB (l : Bool) : TableRow :=
  ⟨if l then "BL" else "B", .b, 0#4 ++ BitVec.allOnes 3 ++ BitVec.allOnes 1 ++ 0#24, encodeB 0#4 l 0#24⟩

def rowI (op : BitVec 4) (s : Bool) : TableRow :=
  ⟨dpMnemonic op s, .dpI, dpHeadMask (testsSetFlags op) ++ 0#4 ++ 0#8,
    encodeI 0#4 op (s && testsSetFlags op) 0#4 0#4 ⟨0#4, 0#8⟩⟩

def rowRI (op : BitVec 4) (s : Bool) : TableRow :=
  ⟨dpMnemonic op s, .dpRI, dpHeadMask (testsSetFlags op) ++ 0#5 ++ 0#2 ++ BitVec.allOnes 1 ++ 0#4,
    encodeRI 0#4 op (s && testsSetFlags op) 0#4 0#4 ⟨0#5, .lsl, 0#4⟩⟩

def rowRR (op : BitVec 4) (s : Bool) : TableRow :=
  ⟨dpMnemonic op s, .dpRR,
    dpHeadMask (testsSetFlags op) ++ 0#4 ++ BitVec.allOnes 1 ++ 0#2 ++ BitVec.allOnes 1 ++ 0#4,
    encodeRR 0#4 op (s && testsSetFlags op) 0#4 0#4 ⟨0#4, .lsl, 0#4⟩⟩

/-- These are rows of the table. -/
theorem rows_mem (l : Bool) (op : BitVec 4) (s : Bool) :
    rowB l ∈ narrowRows ∧ rowI op s ∈ narrowRows ∧ rowRI op s ∈ narrowRows ∧ rowRR op s ∈ narrowRows := by
  revert l op s; decide

theorem rowB_takes (c : Cond) (l : Bool) (n : BitVec 24) : (rowB l).Takes (encodeB c l n) :=
  and_append_eq (and_append_eq (and_append_eq BitVec.and_zero BitVec.and_allOnes) BitVec.and_allOnes) BitVec.and_zero

theorem rowI_takes (c : Cond) (op : BitVec 4) (s : Bool) (rn rd : RegIdx) (o : ImmOperand) :
    (rowI op s).Takes (encodeI c op s rn rd o) :=
  and_append_eq (and_append_eq (dpHead_and_mask ..) BitVec.and_zero) BitVec.and_zero

theorem rowRI_takes (c : Cond) (op : BitVec 4) (s : Bool) (rn rd : RegIdx) (o : ShiftImmOperand) :
    (rowRI op s).Takes (encodeRI c op s rn rd o) := by
  have hkind := and_append_eq (and_append_eq (dpHead_and_mask c 0b000#3 op s (testsSetFlags op) rn rd)
    (BitVec.and_zero (x := o.shiftImm))) (BitVec.and_zero (x := shiftKindBits o.kind))
  exact and_append_eq (and_append_eq hkind BitVec.and_allOnes) BitVec.and_zero

theorem rowRR_takes (c : Cond) (op : BitVec 4) (s : Bool) (rn rd : RegIdx) (o : ShiftRegOperand) :
    (rowRR op s).Takes (encodeRR c op s rn rd o) := by
  have hbit7 := and_append_eq (and_append_eq (dpHead_and_mask c 0b000#3 op s (testsSetFlags op) rn rd)
    (BitVec.and_zero (x := o.rs))) (BitVec.and_allOnes (x := 0b0#1))
  have hkind := and_append_eq hbit7 (BitVec.and_zero (x := shiftKindBits o.kind))
  exact and_append_eq (and_append_eq hkind BitVec.and_allOnes) BitVec.and_zero

theorem undefinedRow_takes (c : Cond) (hi : BitVec 20) (lo : BitVec 4) : undefinedRow.Takes (encodeUnd c hi lo) := by
  have hclass := and_append_eq (BitVec.and_zero (x := c)) (BitVec.and_allOnes (x := 0b011#3))
  have hhi := and_append_eq hclass (BitVec.and_zero (x := hi))
  exact and_append_eq (and_append_eq hhi (BitVec.and_allOnes (x := 0b1#1))) (BitVec.and_zero (x := lo))

/-! The Unclassified words, which no narrow row takes. -/

/-- The row that its class bits and bits 7 and 4 alone would give a word. -/
def selectorRow (c : BitVec 3) (b7 b4 : Bool) : TableRow :=
  ⟨"UNCLASSIFIED", .none, joinSelector 0b111#3 true true 0#4 0#17 0#2 0#4, joinSelector c b7 b4 0#4 0#17 0#2 0#4⟩

theorem selectorRow_takes (w : Word) : (selectorRow (classOf w) (w.getLsbD 7) (w.getLsbD 4)).Takes w := by
  have hclass := and_append_eq (BitVec.and_zero (x := condOf w)) (BitVec.and_allOnes (x := classOf w))
  have hmid := and_append_eq hclass (BitVec.and_zero (x := w.extractLsb' 8 17))
  have hbit7 := and_append_eq hmid (BitVec.and_allOnes (x := BitVec.ofBool (w.getLsbD 7)))
  have htype := and_append_eq hbit7 (BitVec.and_zero (x := typeOf w))
  have hbit4 := and_append_eq htype (BitVec.and_allOnes (x := BitVec.ofBool (w.getLsbD 4)))
  have hall := and_append_eq hbit4 (BitVec.and_zero (x := rmOf w))
  exact TableRow.Takes.of_eq hall (joinSelector_fields w)

theorem not_narrowRow_takes {w : Word} (h : classify w = .unclassified) : ∀ r ∈ narrowRows, ¬r.Takes w := by
  have htable : ∀ c b7 b4, variantOfBits c false b7 b4 = .unclassified →
      ∀ r ∈ narrowRows, (selectorRow c b7 b4).Clash r := by
    unfold TableRow.Clash
    decide
  obtain ⟨-, -, -, -, hrest⟩ := classify_iff w
  obtain ⟨-, hbx, -⟩ := hrest.mp h
  rw [classify_eq_variantOfBits, hbx] at h
  exact fun r hr => (htable _ _ _ h r hr).not_takes (selectorRow_takes w)

theorem exists_firstRow_of_narrowRow {w : Word} {r : TableRow} (hbx : isBX w = false) (hmem : r ∈ narrowRows)
    (htakes : r.Takes w) (hmnemonic : r.mnemonic = mnemonicOf (decodeWord w))
    (hformat : r.format = formatOf (decodeWord w)) :
    ∃ r, firstRow opcodeTable w = some r ∧
      r.mnemonic = mnemonicOf (decodeWord w) ∧ r.format = formatOf (decodeWord w) :=
  ⟨r, by rw [firstRow_opcodeTable hbx, firstRow_narrowRows hmem htakes]; rfl, hmnemonic, hformat⟩

/-- Settles O8: a narrow row takes each word of its format, and none takes an Unclassified word. -/
theorem opcodeTableFirstRowNamesTheDecodedInstruction : Obligations.OpcodeTableFirstRowNamesTheDecodedInstruction := by
  intro w
  obtain ⟨hB, hI, hRI, hRR⟩ := rows_mem (linkBit w) (opcodeOf w) (sBit w)
  obtain ⟨hbranch, hexchange, hdp, hundef, hrest⟩ := classify_iff w
  cases h : classify w with
  | branch =>
    have hc := class_of_isBranch (hbranch.mp h)
    have htakes := (rowB_takes ..).of_eq (encodeB_fields hc)
    refine exists_firstRow_of_narrowRow (isBX_of_class_ne (by simp [hc])) hB htakes ?_ ?_
    all_goals
      rw [decodeWord, h]
      cases linkBit w <;> rfl
  | branchExchange =>
    refine ⟨bxRow, firstRow_of_isBX (hexchange.mp h).2, ?_⟩
    rw [decodeWord, h]
    exact ⟨rfl, rfl⟩
  | dataProcessing =>
    obtain ⟨-, hbx, -⟩ := hdp.mp h
    obtain ⟨⟨hmI, hfI⟩, ⟨hmRI, hfRI⟩, ⟨hmRR, hfRR⟩⟩ := decode_forms_row w
    rcases decodeWord_dataProcessing h with ⟨hc, hd⟩ | ⟨hc, h4, hd⟩ | ⟨hc, h7, h4, hd⟩
    · have htakes := (rowI_takes ..).of_eq (encodeI_fields hc)
      exact exists_firstRow_of_narrowRow hbx hI htakes (hd ▸ hmI.symm) (hd ▸ hfI.symm)
    · have htakes := (rowRI_takes ..).of_eq (encodeRI_fields hc h4)
      exact exists_firstRow_of_narrowRow hbx hRI htakes (hd ▸ hmRI.symm) (hd ▸ hfRI.symm)
    · have htakes := (rowRR_takes ..).of_eq (encodeRR_fields hc h7 h4)
      exact exists_firstRow_of_narrowRow hbx hRR htakes (hd ▸ hmRR.symm) (hd ▸ hfRR.symm)
  | undefined =>
    obtain ⟨-, hbx, -, hu⟩ := hundef.mp h
    obtain ⟨hc, h4⟩ := class_of_isUndef hu
    have htakes := (undefinedRow_takes ..).of_eq (encodeUnd_fields hc h4)
    refine exists_firstRow_of_narrowRow hbx (by decide) htakes ?_ ?_ <;> rw [decodeWord, h] <;> rfl
  | unclassified =>
    obtain ⟨-, hbx, -⟩ := hrest.mp h
    refine ⟨lastRow, ?_, by rw [decodeWord, h]; rfl, by rw [decodeWord, h]; rfl⟩
    rw [firstRow_opcodeTable hbx, firstRow_eq_none (not_narrowRow_takes h)]
    rfl

end Sys2Proof
end
section
/-! PROOFS. O12, O13, O14. The operands that the block assembles from the fields. -/

namespace Sys2Proof.Machine

theorem toInt_branchByteOffset (imm24 : BitVec 24) : (branchByteOffset imm24).toInt = 4 * imm24.toInt := by
  rw [branchByteOffset, BitVec.toInt_signExtend_of_le (by decide), BitVec.toInt_append]
  simp

/-- Settles O12: sign extension keeps the value, and the two zero bits multiply it by 4. -/
theorem branchByteOffsetIsSignedAndAligned : Obligations.BranchByteOffsetIsSignedAndAligned := by
  refine ⟨fun imm24 => ?_, by decide, by decide⟩
  have hlo : -2 ^ 23 ≤ imm24.toInt := BitVec.le_toInt imm24
  have hhi : imm24.toInt < 2 ^ 23 := BitVec.toInt_lt
  have hvalue := toInt_branchByteOffset imm24
  exact ⟨rfl, hvalue, by omega, by omega⟩

/-- `ROR32` is the rotation of the 32-bit word (00_scope.md R8). -/
theorem ror32_eq_rotateRight (v : Word) {n : Nat} (h : n < 32) : ror32 v n = v.rotateRight n := by
  rw [BitVec.rotateRight_def, Nat.mod_eq_of_lt h, ror32]
  split
  next hn =>
    subst hn
    simp
  next => rfl

/-- Settles O13: the amount is even and below 32, where `ROR32` is the rotation. -/
theorem rotatedImmediateIsRotatedRightInTheWord : Obligations.RotatedImmediateIsRotatedRightInTheWord := by
  refine ⟨fun rot imm8 => ?_, by decide, by decide⟩
  have hamount := rotateAmount_toNat rot
  have hrot := rot.isLt
  refine ⟨hamount, by omega, ?_⟩
  rw [immValue, hamount, ror32_eq_rotateRight _ (by omega)]

/-- The shift type of bits 6–5: rotate-right by an immediate 0 is RRX, and every other keeps its name (R77, 92 D18). -/
theorem shiftType_eq_iff (t : BitVec 2) (byReg : Bool) (n : BitVec 5) :
    let shift := shiftType (shiftKindOf t) byReg n
    (shift = .rrx ↔ t = 0b11#2 ∧ byReg = false ∧ n = 0#5) ∧
    (shift = .ror ↔ t = 0b11#2 ∧ ¬(byReg = false ∧ n = 0#5)) ∧
    (shift = .lsl ↔ t = 0b00#2) ∧ (shift = .lsr ↔ t = 0b01#2) ∧ (shift = .asr ↔ t = 0b10#2) := by
  have ht : t = 0b00#2 ∨ t = 0b01#2 ∨ t = 0b10#2 ∨ t = 0b11#2 := by revert t; decide
  rcases ht with rfl | rfl | rfl | rfl
  · simp [shiftKindOf, shiftType]
  · simp [shiftKindOf, shiftType]
  · simp [shiftKindOf, shiftType]
  · by_cases hrrx : byReg = false ∧ n = 0#5 <;> simp [shiftKindOf, shiftType, hrrx]

/-- Settles O14: the operand of either register form carries the shift type of `shiftType_eq_iff`. -/
theorem rrxOnlyForRotateRightByImmediateZero : Obligations.RrxOnlyForRotateRightByImmediateZero := by
  intro w _ hi
  refine ⟨shiftType (shiftKindOf (typeOf w)) (byRegBit w) (shiftImmOf w), ?_, shiftType_eq_iff ..⟩
  show operand2Of w = .reg (rmOf w) _ (if byRegBit w then .regAmount (rsOf w) else .immAmount (shiftImmOf w))
  rw [operand2Of, show iBit w = false from hi]
  cases byRegBit w <;> rfl

end Sys2Proof.Machine
end

section
/-! PROOFS. O29. The fifteen condition names, each with the first value that has it. -/

namespace Sys2Proof.Machine

/-- The value of a condition name; 14 for "always", the reserved 15 being the other (30_encoding.md R74). -/
def condCode : CondName → Cond
  | .equal => 0#4 | .notEqual => 1#4 | .carrySet => 2#4 | .carryClear => 3#4
  | .minus => 4#4 | .plus => 5#4 | .overflowSet => 6#4 | .overflowClear => 7#4
  | .unsignedHigher => 8#4 | .unsignedLowerOrSame => 9#4
  | .signedGreaterOrEqual => 10#4 | .signedLessThan => 11#4
  | .signedGreaterThan => 12#4 | .signedLessOrEqual => 13#4
  | .always => 14#4

theorem condName_condCode (n : CondName) : condName (condCode n) = n := by
  cases n <;> rfl

theorem condCode_condName {c : Cond} (h : c ≠ 15#4) : condCode (condName c) = c := by
  revert c; decide

/-- Settles O29: below 15 a name and its value determine each other. -/
theorem conditionNamesAreFifteen : Obligations.ConditionNamesAreFifteen := by
  have hinj (c d : Cond) (hc : c ≠ 15#4) (hd : d ≠ 15#4) (h : condName c = condName d) : c = d := by
    rw [← condCode_condName hc, h, condCode_condName hd]
  refine ⟨rfl, rfl, rfl, rfl, rfl, rfl, rfl, rfl, rfl, rfl, rfl, rfl, rfl, rfl, rfl, rfl, rfl, rfl, rfl, rfl, rfl, rfl,
    rfl, rfl, rfl, rfl, rfl, rfl, rfl, rfl, rfl, rfl, by decide, hinj, fun n => ⟨condCode n, condName_condCode n⟩⟩

end Sys2Proof.Machine
end

section
/-! PROOFS. O52. One instruction is four bytes (30_encoding.md R60). -/

namespace Sys2Proof.Machine

theorem decodeBytes_of_length {bs : List Byte} (h : 4 ≤ bs.length) :
    ∃ i, decodeBytes bs = .ok (i, bs.drop 4) ∧ ∀ more, decodeBytes (bs.take 4 ++ more) = .ok (i, more) := by
  match bs, h with
  | b0 :: b1 :: b2 :: b3 :: rest, _ => exact ⟨decodeWord (assembleWord b0 b1 b2 b3), rfl, fun _ => rfl⟩

/-- Settles O52: the decoder reads the first four bytes, and a THUMB state fetches no word. -/
theorem everyInstructionIsOneWordOfFourBytes : Obligations.EveryInstructionIsOneWordOfFourBytes := by
  refine ⟨fun bs h => decodeBytes_of_length h, fun s t hthumb hstep => ?_⟩
  obtain ⟨w, hfetch, -⟩ := step_eq_next_iff.mp hstep
  simp [fetch_eq_thumb hthumb] at hfetch

end Sys2Proof.Machine
end

section
/-! PROOFS. O7. Counting: class bits and bits 7 and 4 leave 2^27 words for each of their values, and the BX words are
counted apart. -/

namespace Sys2Proof

/-- The bits 27–25, 7 and 4 of a word. -/
abbrev Selector := BitVec 3 × Bool × Bool

def selectorOf (w : Word) : Selector := (classOf w, w.getLsbD 7, w.getLsbD 4)

theorem card_bitVec (n : Nat) : Nat.card (BitVec n) = 2 ^ n := by
  rw [Nat.card_eq_fintype_card, ← FinEnum.card_eq_fintypeCard, FinEnum.card_bitVec]

/-! The fields of a joined word. -/

section
variable (c : BitVec 3) (b7 b4 : Bool) (cond : Cond) (mid : BitVec 17) (type : BitVec 2) (rm : RegIdx)

theorem selectorOf_joinSelector : selectorOf (joinSelector c b7 b4 cond mid type rm) = (c, b7, b4) := by
  have h7 : (joinSelector c b7 b4 cond mid type rm).getLsbD 7 = b7 := by
    simp only [joinSelector, BitVec.getLsbD_append]
    simp
  have h4 : (joinSelector c b7 b4 cond mid type rm).getLsbD 4 = b4 := by
    simp only [joinSelector, BitVec.getLsbD_append]
    simp
  have hc : classOf (joinSelector c b7 b4 cond mid type rm) = c := by
    simp (disch := decide) only [joinSelector, classOf, extract_append_high, extract_append_low]
    exact extract_self c
  rw [selectorOf, h7, h4, hc]

theorem rest_joinSelector :
    (condOf (joinSelector c b7 b4 cond mid type rm), (joinSelector c b7 b4 cond mid type rm).extractLsb' 8 17,
      typeOf (joinSelector c b7 b4 cond mid type rm), rmOf (joinSelector c b7 b4 cond mid type rm)) =
      (cond, mid, type, rm) := by
  simp (disch := decide) only [joinSelector, condOf, typeOf, rmOf, extract_append_high, extract_append_low]
  exact congr (congrArg _ (extract_self cond))
    (congr (congrArg _ (extract_self mid)) (congr (congrArg _ (extract_self type)) (extract_self rm)))

end

/-- A word is its selector and the 27 other bits. -/
def wordEquiv : Word ≃ Selector × Cond × BitVec 17 × BitVec 2 × RegIdx where
  toFun w := (selectorOf w, condOf w, w.extractLsb' 8 17, typeOf w, rmOf w)
  invFun := fun ((c, b7, b4), cond, mid, type, rm) => joinSelector c b7 b4 cond mid type rm
  left_inv := joinSelector_fields
  right_inv _ := Prod.ext (selectorOf_joinSelector ..) (rest_joinSelector ..)

/-- Each value of the selector has 2^27 words. -/
theorem card_words_of_selector (P : Selector → Prop) :
    Nat.card {w : Word // P (selectorOf w)} = Nat.card {k : Selector // P k} * 2 ^ 27 := by
  have e : {w : Word // P (selectorOf w)} ≃ {k : Selector // P k} × Cond × BitVec 17 × BitVec 2 × RegIdx :=
    (wordEquiv.subtypeEquiv fun _ => Iff.rfl).trans Equiv.prodSubtypeFstEquivSubtypeProd
  rw [Nat.card_congr e]
  simp only [Nat.card_prod, card_bitVec]
  norm_num

/-- A BX word is its condition and its register. -/
def bxWordEquiv : {w : Word // isBX w = true} ≃ Cond × RegIdx where
  toFun w := (condOf w, rmOf w)
  invFun p := ⟨encodeBX p.1 p.2, isBX_encodeBX p.1 p.2⟩
  left_inv w := Subtype.ext (encodeBX_fields w.2)
  right_inv _ := Prod.ext (cond_encodeBX ..) (rm_encodeBX ..)

theorem card_isBX : Nat.card {w : Word // isBX w = true} = 2 ^ 8 := by
  rw [Nat.card_congr bxWordEquiv, Nat.card_prod, card_bitVec]
  rfl

/-! The variants in the selector. -/

/-- The variant that its selector gives a word that is no BX. -/
def variantOfSelector (k : Selector) : Variant := variantOfBits k.1 false k.2.1 k.2.2

theorem classify_eq_ite (w : Word) :
    classify w = if isBX w = true then .branchExchange else variantOfSelector (selectorOf w) := by
  rw [classify_eq_variantOfBits]
  split
  next h => rw [class_of_isBX h, h]; rfl
  next h => rw [Bool.not_eq_true] at h; rw [h]; rfl

/-- Without the pattern of their bits 27–4 the BX words would be DataProcessing. -/
theorem variantOfSelector_of_isBX {w : Word} (h : isBX w = true) :
    variantOfSelector (selectorOf w) = .dataProcessing := by
  have h7 : w.getLsbD 7 = false := by
    by_contra h7
    simp [isBX_of_bit7 (by simpa using h7)] at h
  rw [variantOfSelector, selectorOf, class_of_isBX h, h7]
  rfl

theorem card_words_of_variant {v : Variant} (hbx : v ≠ .branchExchange) (hdp : v ≠ .dataProcessing) :
    Nat.card {w : Word // classify w = v} = Nat.card {k : Selector // variantOfSelector k = v} * 2 ^ 27 := by
  rw [← card_words_of_selector]
  refine Nat.card_congr (Equiv.subtypeEquivRight fun w => ?_)
  rw [classify_eq_ite]
  split
  next h => simp [variantOfSelector_of_isBX h, hbx.symm, hdp.symm]
  next => rfl

/-- The DataProcessing words together with the BX words. -/
theorem card_dataProcessing_add_card_isBX :
    Nat.card {w : Word // classify w = .dataProcessing} + Nat.card {w : Word // isBX w = true} =
      Nat.card {k : Selector // variantOfSelector k = .dataProcessing} * 2 ^ 27 := by
  have hdisjoint : Disjoint (fun w => classify w = .dataProcessing) (fun w => isBX w = true) := by
    rw [Pi.disjoint_iff]
    intro w
    rw [Prop.disjoint_iff, classify_eq_ite]
    by_cases h : isBX w = true <;> simp [h]
  rw [← card_words_of_selector, ← Nat.card_sum]
  refine Nat.card_congr ((subtypeOrEquiv _ _ hdisjoint).symm.trans (Equiv.subtypeEquivRight fun w => ?_))
  rw [classify_eq_ite]
  by_cases h : isBX w = true <;> simp [h, variantOfSelector_of_isBX]

theorem card_selectors :
    Nat.card {k : Selector // variantOfSelector k = .branch} = 4 ∧
    Nat.card {k : Selector // variantOfSelector k = .dataProcessing} = 7 ∧
    Nat.card {k : Selector // variantOfSelector k = .undefined} = 2 ∧
    Nat.card {k : Selector // variantOfSelector k = .unclassified} = 19 := by
  simp only [Nat.card_eq_fintype_card]
  decide

/-- Settles O7: selectors counted by variant, with the BX words taken out of DataProcessing. -/
theorem wordsOfEachVariantAreCounted : Obligations.WordsOfEachVariantAreCounted := by
  obtain ⟨hbranch, hdp, hundef, hrest⟩ := card_selectors
  have hsum := card_dataProcessing_add_card_isBX
  rw [card_isBX, hdp] at hsum
  refine ⟨?branch, ?exchange, ?dp, ?undefined, ?unclassified⟩
  case branch => rw [card_words_of_variant (by decide) (by decide), hbranch]; norm_num
  case exchange =>
    rw [← card_isBX]
    refine Nat.card_congr (Equiv.subtypeEquivRight fun w => ⟨fun h => ?_, fun h => by rw [classify_eq_ite, if_pos h]⟩)
    obtain ⟨-, hexchange, -⟩ := classify_iff w
    exact (hexchange.mp h).2
  case dp => exact Nat.eq_sub_of_add_eq (hsum.trans (by norm_num))
  case undefined => rw [card_words_of_variant (by decide) (by decide), hundef]; norm_num
  case unclassified => rw [card_words_of_variant (by decide) (by decide), hrest]; norm_num

end Sys2Proof
end

section
/-! PROOFS. O39. A well-formed instruction is what its own word decodes to, and that means the block on the word. -/

namespace Sys2Proof.Machine

/-- Settles O39: the instruction is decoded from its own word, and what a word decodes to means the block on it. -/
theorem meaningOfAnInstructionIsTheBlockOnItsWord : Obligations.MeaningOfAnInstructionIsTheBlockOnItsWord := by
  intro i s hwf
  have hexec := exec_decodeWord (encode i) s
  rw [decode_encode hwf] at hexec
  exact hexec

end Sys2Proof.Machine
end

section
/-! PROOFS. O11. The condition, in the words of the encoder and in the records of the meanings. -/

namespace Sys2Proof.Machine

theorem setWidth_condOf (w : Word) : (condOf w).setWidth 32 = w >>> 28 := by
  have hw : w.toNat < 2 ^ 32 := w.isLt
  apply BitVec.eq_of_toNat_eq
  simp only [condOf, BitVec.toNat_setWidth, BitVec.extractLsb'_toNat, BitVec.toNat_ushiftRight,
    Nat.shiftRight_eq_div_pow]
  omega

/-- Every format puts the condition into bits 31–28 (30_encoding.md R61). -/
theorem condOf_encode (i : Instr) : condOf (encode i) = instrCond i := by
  cases i with
  | b | bl => exact cond_encodeB ..
  | bx => exact cond_encodeBX ..
  | undefined => exact cond_encodeUnd ..
  | unclassified => rfl
  | andI | eorI | subI | rsbI | addI | adcI | sbcI | rscI | tstI | teqI | psrxI | cmpI | cmnI | orrI | movI | bicI
  | mvnI => exact cond_encodeI ..
  | andRI | eorRI | subRI | rsbRI | addRI | adcRI | sbcRI | rscRI | tstRI | teqRI | psrxRI | cmpRI | cmnRI | orrRI
  | movRI | bicRI | mvnRI => exact cond_encodeRI ..
  | andRR | eorRR | subRR | rsbRR | addRR | adcRR | sbcRR | rscRR | tstRR | teqRR | psrxRR | cmpRR | cmnRR | orrRR
  | movRR | bicRR | mvnRR => exact cond_encodeRR ..

/-- Well formed or not, an instruction hands the block a record with its own condition (40_decode_pipeline.md R102). -/
theorem exec_eq_call_with_cond (i : Instr) (s : State) :
    ∃ tag rec, exec i s = callBlock tag rec s ∧ rec.cond = instrCond i := by
  unfold exec
  cases i <;> exact ⟨_, _, rfl, rfl⟩

/-- Settles O11: the block reads the condition from bits 31–28, and a meaning's record has the condition that the
encoder writes there. -/
theorem everyRecordCarriesBits31To28 : Obligations.EveryRecordCarriesBits31To28 := by
  refine ⟨fun w _ => ⟨rfl, setWidth_condOf w⟩, fun i s t h => ?_⟩
  obtain ⟨tag, rec, hcall, hcond⟩ := exec_eq_call_with_cond i s
  obtain ⟨-, -, -, o, hrecord, hemitted⟩ := callBlock_frame (hcall.symm.trans h)
  exact ⟨o, hemitted, by rw [hrecord, hcond, ← condOf_encode, setWidth_condOf]⟩

end Sys2Proof.Machine
end

section
/-! PROOFS. O25, O26, O27. What the block's records, the resolver and its defensive check can be. -/

namespace Sys2Proof.Machine

/-- Settles O25: the block's record is the one of `decodeRecord_sound`, whatever the position. -/
theorem recordsOfTheBlockAreConsistent : Obligations.RecordsOfTheBlockAreConsistent :=
  fun w _ => decodeRecord_sound w

/-- The block answers a target exactly for the words that the classifier calls Branch (40_decode_pipeline.md R104). -/
theorem resolve_decodeRecord_isSome_iff (w pc : Word) :
    (resolve (decodeRecord w) pc).isSome = true ↔ classify w = .branch := by
  rw [resolve_isSome, isBranchRecord_decodeRecord, beq_iff_eq]

/-- Settles O26: the resolver goes by the payload alone, and a word's payload is its variant's. -/
theorem onlyBranchRecordsResolve : Obligations.OnlyBranchRecordsResolve :=
  ⟨fun _ _ => ⟨fun _ _ _ => rfl, fun _ => rfl, fun _ _ _ _ _ _ _ => rfl, rfl, rfl⟩, resolve_decodeRecord_isSome_iff⟩

theorem isBranchRecord_iff (rec : Decoded) : isBranchRecord rec = true ↔ variantOf rec = .branch := by
  unfold isBranchRecord variantOf
  cases rec.body <;> simp

/-- The defensive check fails exactly where the tag is not the record's (R106). -/
theorem resolveTagged_eq_error_iff (tag : Bool) (rec : Decoded) (pc : Word) :
    resolveTagged tag rec pc = .error .inconsistentPcChangeTag ↔ tag ≠ isBranchRecord rec := by
  unfold resolveTagged
  split
  next h => simp [h]
  next h => simp [h]

theorem exec_ne_fault (i : Instr) (s : State) (f : Fault) : exec i s ≠ .fault f := by
  obtain ⟨t, ht⟩ := exec_eq_next i s
  simp [ht]

/-- A step is refused before any word is read, or it is an instruction's. -/
theorem step_ne_fault (s : State) (f : Fault) : step s ≠ .fault f := by
  unfold step
  split
  next => simp
  next => exact exec_ne_fault _ s f

/-- Settles O27: no port, step or meaning shows the fault, and the check alone does, where the tag is wrong. -/
theorem defensiveFaultIsNeverRaised : Obligations.DefensiveFaultIsNeverRaised := by
  refine ⟨blockPorts_fault_o, step_ne_fault, exec_ne_fault, fun rec pc tag => ?_⟩
  rw [resolveTagged_eq_error_iff, ← isBranchRecord_iff, ← Bool.eq_iff_iff]

end Sys2Proof.Machine
end

section
/-! PROOFS. O16, O17, O18, O19, O33. B and BL: the word's bits, its record and target, and the field that the record
encodes back (41_branch.md). -/

namespace Sys2Proof.Machine

/-! The word: class bits 101 and the link bit are bits 27–24 (30_encoding.md R62, R68). -/

theorem classify_of_branch_class {w : Word} (h : classOf w = 0b101#3) : classify w = .branch := by
  rw [classify_eq_variantOfBits, h]
  rfl

theorem bits27To24_eq (w : Word) : w.extractLsb' 24 4 = classOf w ++ BitVec.ofBool (linkBit w) := by
  rw [classOf, linkBit, ofBool_getLsbD]
  exact (extract_append_extract w 25 24 3 1 rfl).symm

/-- Bits 27–24 are 1010 or 1011 only under the class of a Branch word, and bit 24 tells them apart. -/
theorem class_and_link_of_bits27To24 {w : Word}
    (h : w.extractLsb' 24 4 = 0b1010#4 ∨ w.extractLsb' 24 4 = 0b1011#4) :
    classOf w = 0b101#3 ∧ (linkBit w = true ↔ w.extractLsb' 24 4 = 0b1011#4) := by
  have htable : ∀ (c : BitVec 3) (l : Bool), c ++ BitVec.ofBool l = 0b1010#4 ∨ c ++ BitVec.ofBool l = 0b1011#4 →
      c = 0b101#3 ∧ (l = true ↔ c ++ BitVec.ofBool l = 0b1011#4) := by
    decide
  rw [bits27To24_eq] at h ⊢
  exact htable _ _ h

/-- The block on a Branch word: the record of its fields, and the target of its offset (R120 to R122). -/
theorem decodeOne_of_branch_class {w : Word} (h : classOf w = 0b101#3) (pc : Word) :
    decodeOne w pc = (branchRecord (condOf w) (linkBit w) (imm24Of w),
      some (branchTarget pc (branchByteOffset (imm24Of w)))) := by
  have hclass := classify_of_branch_class h
  rw [decodeOne, resolve_decodeRecord_branch hclass, decodeRecord, hclass]
  rfl

/-! The target (R122). -/

/-- An offset of -12 takes back the bias: the branch goes to its own position (R122). -/
theorem branchTarget_neg_bias (pc : Word) : branchTarget pc (-Config.branchBias) = pc :=
  add_neg_cancel_right pc Config.branchBias

theorem toNat_branchTarget_zero {pc : Word} (h : pc.toNat + 12 < 2 ^ 32) :
    (branchTarget pc 0#32).toNat = pc.toNat + 12 := by
  rw [branchTarget, BitVec.add_zero]
  exact BitVec.toNat_add_of_lt h

/-- A word and its signed reading differ by a multiple of 2^32. -/
theorem toInt_emod_eq_toNat (x : Word) : x.toInt % 2 ^ 32 = x.toNat := by
  have hx : x.toNat < 2 ^ 32 := x.isLt
  rw [BitVec.toInt_eq_toNat_cond]
  split <;> omega

/-- The target in the integers modulo 2^32 (92 D2), its offset signed (conflict C1). -/
theorem toNat_branchTarget_eq_emod (pc off : Word) :
    ((branchTarget pc off).toNat : Int) = ((pc.toNat : Int) + 12 + off.toInt) % 2 ^ 32 := by
  have hoff := toInt_emod_eq_toNat off
  simp only [branchTarget, Config.branchBias, BitVec.toNat_add, BitVec.toNat_ofNat]
  omega

/-- The bias is the post-increment of 4 and the read-ahead of 8 (R122, conflict C6). -/
theorem branchTarget_eq_add_four_add_eight (pc off : Word) : branchTarget pc off = pc + 4#32 + off + 8#32 := by
  rw [add_right_comm, add_assoc pc]
  rfl

/-! The settled statements on words. -/

/-- Settles O16: bits 27–24 give class and link, and the block on that class gives record and target. -/
theorem branchWordsDecodeAndResolve : Obligations.BranchWordsDecodeAndResolve := by
  refine ⟨fun w pc h => ?_, rfl, rfl, fun pc hpc => ⟨?_, _, ?_, toNat_branchTarget_zero hpc⟩, rfl⟩
  · obtain ⟨hclass, hlink⟩ := class_and_link_of_bits27To24 h
    exact ⟨decodeOne_of_branch_class hclass pc, hlink⟩
  · rw [decodeOne_of_branch_class (by decide)]
    exact congrArg some (branchTarget_neg_bias pc)
  · rw [decodeOne_of_branch_class (by decide)]
    rfl

/-- Settles O17: the sum of the target, and the offset as four times the signed field. -/
theorem branchTargetIsTwelvePastPlusTheOffset : Obligations.BranchTargetIsTwelvePastPlusTheOffset := by
  refine ⟨fun pc imm24 => ⟨branchTarget_eq_add_four_add_eight .., ?_, fun hpc => ?_⟩, rfl⟩
  · rw [toNat_branchTarget_eq_emod, toInt_branchByteOffset]
  · exact branchTarget_aligned hpc (branchByteOffset_aligned imm24)

/-- Settles O18: the target of a Branch word names neither its condition nor its link bit. -/
theorem branchAnswerSameForEveryConditionAndLink : Obligations.BranchAnswerSameForEveryConditionAndLink := by
  refine ⟨fun w w' pc h h' himm => ?_, rfl⟩
  have hfield : imm24Of w = imm24Of w' := himm
  rw [decodeOne_of_branch_class h, decodeOne_of_branch_class h', hfield]
  exact ⟨rfl, rfl⟩

/-! The re-encoder (R123). -/

/-- Two places down, bits 25–2 of the offset come to stand in the low 24 bits. -/
theorem shift_and_mask_eq (off : Word) : (off >>> 2) &&& 0x00FFFFFF#32 = 0#8 ++ off.extractLsb' 2 24 := by
  have hlow : (off >>> 2).extractLsb' 0 24 = off.extractLsb' 2 24 := by
    ext i hi
    simp [BitVec.getElem_extractLsb']
  conv_lhs => rw [← extract_self (off >>> 2), ← extract_append_extract (off >>> 2) 24 0 8 24 rfl, hlow]
  exact and_append_eq BitVec.and_zero BitVec.and_allOnes

/-- Bit 25 is 1 (92 D20), then the link bit, then bits 25–2 of the offset. -/
theorem encodeBranch_eq_append (link : Bool) (off : Word) :
    encodeBranch link off = 0#6 ++ (0b1#1 ++ BitVec.ofBool link ++ off.extractLsb' 2 24) := by
  have hflags : (1#32 <<< 25) ||| ((BitVec.ofBool link).setWidth 32 <<< 24) =
      0#6 ++ (0b1#1 ++ BitVec.ofBool link) ++ 0#24 := by
    cases link <;> rfl
  rw [encodeBranch, shift_and_mask_eq, hflags]
  calc (0#6 ++ (0b1#1 ++ BitVec.ofBool link) ++ 0#24) ||| (0#8 ++ off.extractLsb' 2 24)
    _ = 0#6 ++ (0b1#1 ++ BitVec.ofBool link) ++ off.extractLsb' 2 24 :=
      BitVec.or_append.trans (congrArg₂ (· ++ ·) BitVec.or_zero BitVec.zero_or)
    _ = 0#6 ++ (0b1#1 ++ BitVec.ofBool link ++ off.extractLsb' 2 24) := BitVec.append_assoc

/-- Sign extension and the two zero bits leave the field in bits 25–2 of the offset (30_encoding.md R79). -/
theorem extract_branchByteOffset (imm24 : BitVec 24) : (branchByteOffset imm24).extractLsb' 2 24 = imm24 := by
  have hlow : (branchByteOffset imm24).extractLsb' 2 24 = (imm24 ++ 0b00#2).extractLsb' 2 24 := by
    ext i hi
    rw [BitVec.getElem_extractLsb', BitVec.getElem_extractLsb', branchByteOffset, BitVec.getLsbD_signExtend]
    simp [show 2 + i < 32 by omega, show 2 + i < 26 by omega]
  rw [hlow, extract_append_high _ _ 2 24 (by decide)]
  exact extract_self imm24

/-- Bits 25–0 of a Branch word: bit 25 of its class, the link bit and the field. -/
theorem bits25To0_of_branch_class {w : Word} (h : classOf w = 0b101#3) :
    w.extractLsb' 0 26 = 0b1#1 ++ BitVec.ofBool (linkBit w) ++ imm24Of w := by
  have hbit25 : 0b1#1 = w.extractLsb' 25 1 := by
    rw [← ofBool_getLsbD, show w.getLsbD 25 = (classOf w).getLsbD 0 by simp [classOf], h]
    rfl
  rw [hbit25]
  simp (disch := decide) only [linkBit, imm24Of, ofBool_getLsbD, extract_append_extract]

/-- Only a word of the class 101 has a Branch payload (R68). -/
theorem class_of_branch_body {w : Word} {link : Bool} {imm24 : BitVec 24} {off : Word}
    (h : (decodeRecord w).body = .branch link imm24 off) : classOf w = 0b101#3 := by
  have hclassify : classify w = .branch := by rw [← variantOf_decodeRecord, variantOf, h]
  exact class_of_isBranch ((classify_iff w).1.mp hclassify)

/-- Settles O19: both are bit 25, the link bit and the field. -/
theorem branchReencodesToBits25To0 : Obligations.BranchReencodesToBits25To0 := by
  intro w pc link imm24 off h
  have hclass := class_of_branch_body h
  rw [decodeOne_of_branch_class hclass] at h
  obtain ⟨rfl, rfl, rfl⟩ := Body.branch.inj h
  rw [encodeBranch_eq_append, extract_branchByteOffset, extract_append_low _ _ 0 26 (by decide), extract_self,
    bits25To0_of_branch_class hclass]

/-! The meanings. -/

/-- A call with a Branch record goes on at the record's target (10_state.md R30). -/
theorem callBlock_branchRecord (cond : Cond) (link : Bool) (imm24 : BitVec 24) (s : State) :
    callBlock true (branchRecord cond link imm24) s =
      .next (afterBranch s (branchRecord cond link imm24) (branchTarget s.pc (branchByteOffset imm24))) :=
  callBlock_of_tag (rec := branchRecord cond link imm24) rfl s

/-- Settles O33: B and BL are that call, without and with the link flag. -/
theorem branchInstructionsComplete : Obligations.BranchInstructionsComplete :=
  fun cond imm24 s => ⟨callBlock_branchRecord cond false imm24 s, callBlock_branchRecord cond true imm24 s⟩

end Sys2Proof.Machine
end

section
/-! PROOFS. O20, O34. BX: the words with the pattern of R140 and those beside it, and the calls whose record the resolver
answers with None (42_branch_exchange.md). -/

namespace Sys2Proof.Machine

/-! The word: R69 comes second in the order of R72, and no Branch word has the pattern. -/

theorem classify_eq_branchExchange_iff (w : Word) : classify w = .branchExchange ↔ isBX w = true := by
  rw [(classify_iff w).2.1, and_iff_right_iff_imp]
  intro h
  rw [isBranch, class_of_isBX h]
  rfl

/-- The block on a BX word: the register of bits 3–0 (conflict C2), and no target (R140). -/
theorem decodeOne_of_isBX {w : Word} (h : isBX w = true) (pc : Word) :
    decodeOne w pc = (⟨condOf w, .branchExchange (rmOf w)⟩, none) := by
  rw [decodeOne, decodeRecord, (classify_eq_branchExchange_iff w).mpr h]
  rfl

/-- Settles O20: the mask spells the pattern, the block on a word with the pattern gives the register and None, and a
word without the pattern, such as one with a bit of it flipped, is no BX. -/
theorem branchExchangeWordsGiveRegisterAndNoTarget : Obligations.BranchExchangeWordsGiveRegisterAndNoTarget := by
  simp only [Obligations.BranchExchangeWordsGiveRegisterAndNoTarget, ← isBX_iff_mask, Ne,
    classify_eq_branchExchange_iff]
  have hflip (w : Word) (k : Nat) (hlo : 4 ≤ k) (hhi : k ≤ 27) (h : isBX w = true) :
      ¬isBX (w ^^^ (1#32 <<< k)) = true := by
    rw [isBX_flip hlo hhi h]
    exact Bool.false_ne_true
  have hworked : isBX 0xE12FFF1E#32 = true := by decide
  exact ⟨fun _ pc h => decodeOne_of_isBX h pc, fun _ h => h, hflip, decodeOne_of_isBX hworked, rfl, rfl, rfl, rfl⟩

/-! The meanings. -/

theorem resolve_eq_none {rec : Decoded} (h : isBranchRecord rec = false) (pc : Word) : resolve rec pc = none := by
  rw [← Option.isNone_iff_eq_none, ← Option.not_isSome, resolve_isSome, h]
  rfl

/-- A call with any record but a Branch emits it with None and goes on 4 further (10_state.md R30). -/
theorem callBlock_unresolved {rec : Decoded} (h : isBranchRecord rec = false) (s : State) :
    callBlock false rec s = .next (afterUnresolved s rec) := by
  rw [callBlock_of_tag h.symm, resolve_eq_none h]
  rfl

/-- Settles O34: each of the three is such a call. -/
theorem branchExchangeAndFallbackInstructionsComplete :
    Obligations.BranchExchangeAndFallbackInstructionsComplete :=
  fun cond rm _ _ w s =>
    ⟨callBlock_unresolved (rec := ⟨cond, .branchExchange rm⟩) rfl s,
      callBlock_unresolved (rec := ⟨cond, .undefined⟩) rfl s,
      callBlock_unresolved (rec := ⟨condOf w, .unclassified⟩) rfl s⟩

end Sys2Proof.Machine
end

section
/-! PROOFS. O35, O36, O37. The three forms of the data-processing meanings: operand 2 of each form, and a call whose record
the resolver answers with None (43_data_processing.md R150 to R155). -/

namespace Sys2Proof.Machine

/-! Operand 2 of each form, in the instruction's fields. -/

/-- The rotate amount is the rotate field and a 0, and the value the byte rotated right by it (R151). -/
theorem operand2Imm_eq (o : ImmOperand) :
    operand2Imm o =
      .imm o.rot (o.rot ++ 0#1) o.imm8 ((o.imm8.setWidth 32).rotateRight (2 * o.rot.toNat)) := by
  obtain ⟨-, -, hvalue⟩ := rotatedImmediateIsRotatedRightInTheWord.1 o.rot o.imm8
  exact congrArg (Operand2.imm o.rot (rotateAmount o.rot) o.imm8) hvalue

/-- The shift type that bits 6–5 name, without the re-tag of R77. -/
def plainShiftType : ShiftKind → ShiftType
  | .lsl => .lsl | .lsr => .lsr | .asr => .asr | .ror => .ror

/-- A shift by a register is never re-tagged (R77, R153). -/
theorem shiftType_byReg_eq (kind : ShiftKind) (n : BitVec 5) : shiftType kind true n = plainShiftType kind := by
  cases kind <;> rfl

/-- A shift by an immediate is re-tagged for rotate-right by 0 alone (R77, 92 D18). -/
theorem shiftType_byImm_eq (kind : ShiftKind) (n : BitVec 5) :
    shiftType kind false n = if kind = .ror ∧ n = 0#5 then .rrx else plainShiftType kind := by
  cases kind with
  | ror => simp [shiftType, plainShiftType]
  | lsl | lsr | asr => rfl

theorem operand2RegImm_eq (o : ShiftImmOperand) :
    operand2RegImm o =
      .reg o.rm (if o.kind = .ror ∧ o.shiftImm = 0#5 then .rrx else plainShiftType o.kind) (.immAmount o.shiftImm) :=
  congrArg (Operand2.reg o.rm · _) (shiftType_byImm_eq ..)

theorem operand2RegReg_eq (o : ShiftRegOperand) :
    operand2RegReg o = .reg o.rm (plainShiftType o.kind) (.regAmount o.rs) :=
  congrArg (Operand2.reg o.rm · _) (shiftType_byReg_eq ..)

/-! The meanings. -/

/-- A call with the record of R150 emits it with None and goes on 4 further, Rd = 15 included (R155). -/
theorem callBlock_dpRecord {c : Cond} {i : Bool} {opcode : BitVec 4} {op : AluOp} {sf : Bool} {rn rd : RegIdx}
    {op2 op2' : Operand2} {s : State} (h : op2 = op2') :
    callBlock false (dpRecord c i opcode op sf rn rd op2) s =
      .next (afterUnresolved s ⟨c, .dataProcessing i opcode op sf rn rd op2'⟩) :=
  h ▸ callBlock_unresolved rfl s

/-- Settles O35: each of the seventeen meanings is such a call, with the rotated immediate. -/
theorem immediateFormsComplete : Obligations.ImmediateFormsComplete := by
  intro c sf rn rd o s
  and_intros <;> exact callBlock_dpRecord (operand2Imm_eq o)

/-- Settles O36: each of the seventeen meanings is such a call, with RRX for rotate-right by 0. -/
theorem immediateShiftFormsComplete : Obligations.ImmediateShiftFormsComplete := by
  intro c sf rn rd o s
  and_intros <;> exact callBlock_dpRecord (operand2RegImm_eq o)

/-- Settles O37: each of the seventeen meanings is such a call, with the shift type as bits 6–5 name it. -/
theorem registerShiftFormsComplete : Obligations.RegisterShiftFormsComplete := by
  intro c sf rn rd o s
  and_intros <;> exact callBlock_dpRecord (operand2RegReg_eq o)

end Sys2Proof.Machine
end

section
/-! PROOFS. O15, O21, O22, O23. The block on data-processing words: operand 2 in the word's bits, and the record by the
opcode, with None (43_data_processing.md R150 to R176). -/

namespace Sys2Proof.Machine

/-! Operand 2 of a data-processing word. -/

theorem iBit_eq_class_bit (w : Word) : iBit w = (classOf w).getLsbD 0 := by
  simp [iBit, classOf]

/-- A data-processing record is a data-processing word's, with the word's operand 2. -/
theorem operand2_of_dp_body {w : Word} {i : Bool} {opcode : BitVec 4} {op : AluOp} {s : Bool} {rn rd : RegIdx}
    {op2 : Operand2} (h : (decodeRecord w).body = .dataProcessing i opcode op s rn rd op2) :
    classify w = .dataProcessing ∧ op2 = operand2Of w := by
  have hclassify : classify w = .dataProcessing := by rw [← variantOf_decodeRecord, variantOf, h]
  rw [decodeRecord_body hclassify] at h
  obtain ⟨-, -, -, -, -, -, hop2⟩ := Body.dataProcessing.inj h
  exact ⟨hclassify, hop2.symm⟩

/-- In the shift-by-register form bit 7 is 0, for the words with bits 7 and 4 both 1 are rejected (R66, R70). -/
theorem bit7_of_dataProcessing {w : Word} (h : classify w = .dataProcessing) (hi : iBit w = false)
    (h4 : w.getLsbD 4 = true) : w.getLsbD 7 = false := by
  rcases decodeWord_dataProcessing h with ⟨hclass, -⟩ | ⟨-, h4', -⟩ | ⟨-, h7, -⟩
  · rw [iBit_eq_class_bit, hclass] at hi
    contradiction
  · rw [h4] at h4'
    contradiction
  · exact h7

theorem operand2Of_imm {w : Word} (hi : iBit w = true) : operand2Of w = operand2Imm (immFields w) := by
  rw [operand2Of_eq, if_pos hi]

theorem operand2Of_regReg {w : Word} (hi : iBit w = false) (h4 : byRegBit w = true) :
    operand2Of w = operand2RegReg (shiftRegFields w) := by
  simp [operand2Of_eq, hi, h4]

/-- Settles O15: the operand of each form, and every word of class 001 is in the immediate form. -/
theorem operandTwoIsReadFromTheFormsFields : Obligations.OperandTwoIsReadFromTheFormsFields := by
  refine ⟨fun w pc i opcode op s rn rd op2 h => ?_, fun w hclass => ?_, rfl, rfl, rfl⟩
  · obtain ⟨hdp, rfl⟩ := operand2_of_dp_body h
    refine ⟨fun hi => (operand2Of_imm hi).trans (operand2Imm_eq _), fun hi h4 => ?_⟩
    refine ⟨bit7_of_dataProcessing hdp hi h4, _, operand2Of_regReg hi h4, shiftType_byReg_ne_rrx _ _, ?_⟩
    rw [shiftTag_shiftType, if_neg (by simp)]
    exact congrArg _ (shiftKindBits_of _)
  · obtain ⟨hclassify, -⟩ := dataProcessingRejectsTheReservedNibbles w
    have hdp := hclassify hclass
    have hi : iBit w = true := by rw [iBit_eq_class_bit, classOf, hclass]; rfl
    rw [decodeRecord_body hdp, decodeBody, hi]
    exact ⟨_, _, _, _, _, _, rfl⟩

/-! The record of a data-processing word. -/

/-- The block on a data-processing word: the record of R150 in the word's bits, and no target (R155). -/
theorem decodeOne_of_dataProcessing {w : Word} (h : classify w = .dataProcessing) (pc : Word) :
    decodeOne w pc = (dpWordRecord w (opcodeOf w) (aluOpName (opcodeOf w) (sBit w)), none) := by
  rw [decodeOne, decodeRecord, h]
  rfl

/-- The opcode, with the set-flags bit, names the operation of the record (30_encoding.md R75, R76). -/
theorem decodeOne_of_opcode {w : Word} (h : classify w = .dataProcessing) (pc : Word) {opcode : BitVec 4} {op : AluOp}
    (hopcode : opcodeOf w = opcode) (hop : aluOpName opcode (sBit w) = op) :
    decodeOne w pc = (dpWordRecord w opcode op, none) := by
  rw [decodeOne_of_dataProcessing h, hopcode, hop]

/-- Settles O21: the opcode alone names each of the six operations. -/
theorem logicalAndMoveWordsGiveTheirRecord : Obligations.LogicalAndMoveWordsGiveTheirRecord := by
  refine ⟨fun w pc h => ?_, by and_intros <;> rfl⟩
  and_intros <;> exact fun hopcode => decodeOne_of_opcode h pc hopcode rfl

/-- Settles O22: the opcode alone names each of the six operations. -/
theorem arithmeticWordsGiveTheirRecord : Obligations.ArithmeticWordsGiveTheirRecord := by
  refine ⟨fun w pc h => ?_, by and_intros <;> rfl⟩
  and_intros <;> exact fun hopcode => decodeOne_of_opcode h pc hopcode rfl

/-! Status-register transfers: opcode 1001 without set-flags (R76), which the BX pattern spells too (R82). -/

theorem opcode_and_sBit_of_isBX {w : Word} (h : isBX w = true) : opcodeOf w = 0b1001#4 ∧ sBit w = false := by
  refine ⟨extract_of_bits27To4 (isBX_bits h) 17 4 (by decide), ?_⟩
  have hbit := congrArg (BitVec.getLsbD · 16) (isBX_bits h)
  simpa [sBit] using hbit

/-- The port is 1 for exactly the status-register transfers (92 D5). -/
theorem dp_psr_xfer_o_iff {w : Word} (h : classify w = .dataProcessing) (pc : Word) :
    (blockPorts w pc).dp_psr_xfer_o = true ↔ opcodeOf w = 0b1001#4 ∧ sBit w = false := by
  obtain ⟨-, -, -, -, -, hpsr⟩ := blockPorts_dataProcessing h pc
  rw [hpsr, beq_iff_eq, aluOpName_eq_statusRegisterTransfer_iff]

/-- Settles O23: the opcode names TST, CMP and CMN, and for opcode 1001 the set-flags bit tells TEQ from the transfer. -/
theorem compareAndStatusTransferWordsGiveTheirRecord :
    Obligations.CompareAndStatusTransferWordsGiveTheirRecord := by
  refine ⟨fun w pc h => ⟨?tst, ?teq, ?psrx, ?cmp, ?cmn⟩, fun w hpattern => ?bx, rfl, rfl, rfl, rfl, rfl, rfl, rfl, rfl,
    fun w pc h => dp_psr_xfer_o_iff h pc, fun pc => ⟨?port, ?noPort⟩, rfl, rfl, rfl⟩
  case tst | cmp | cmn => exact fun hopcode => decodeOne_of_opcode h pc hopcode rfl
  case teq | psrx => exact fun hopcode hs => decodeOne_of_opcode h pc hopcode (by rw [sBit, hs]; rfl)
  case bx =>
    have hbx := (isBX_iff_pattern w).mpr hpattern
    obtain ⟨hopcode, hs⟩ := opcode_and_sBit_of_isBX hbx
    exact ⟨hopcode, hs, (classify_eq_branchExchange_iff w).mpr hbx⟩
  case port => exact (dp_psr_xfer_o_iff (by decide) pc).mpr (by decide)
  case noPort => exact Bool.eq_false_iff.mpr (mt (dp_psr_xfer_o_iff (by decide) pc).mp (by decide))

end Sys2Proof.Machine
end

section
/-! PROOFS. O24. The block on the words of the undefined space and on those that no predicate takes
(44_undefined_unclassified.md R200, R201). -/

namespace Sys2Proof.Machine

/-- Class bits 011 with bit 4 set are an Undefined word's, whatever the other bits (R71, R72). -/
theorem classify_of_undefined_class {w : Word} (h : classOf w = 0b011#3) (h4 : w.getLsbD 4 = true) :
    classify w = .undefined := by
  rw [classify_eq_variantOfBits, h, h4]
  rfl

/-- The block on an Undefined word: the condition alone, and no target (R200). -/
theorem decodeOne_of_undefined {w : Word} (h : classify w = .undefined) (pc : Word) :
    decodeOne w pc = (⟨condOf w, .undefined⟩, none) := by
  rw [decodeOne, decodeRecord, h]
  rfl

/-- The block on an Unclassified word: the condition alone, and no target (R201). -/
theorem decodeOne_of_unclassified {w : Word} (h : classify w = .unclassified) (pc : Word) :
    decodeOne w pc = (⟨condOf w, .unclassified⟩, none) := by
  rw [decodeOne, decodeRecord, h]
  rfl

/-- Settles O24: the class bits and bit 4, or the failure of every predicate, give the variant, and the variant the record;
the fault port is 0 for every word (R210, R211). -/
theorem undefinedAndUnclassifiedWordsCarryOnlyTheCondition :
    Obligations.UndefinedAndUnclassifiedWordsCarryOnlyTheCondition := by
  refine ⟨fun w pc => ⟨fun ⟨hclass, h4⟩ => ?undefined, fun hnone => ?unclassified⟩,
    fun w pc _ => blockPorts_fault_o w pc, fun w hw => ?undefinedWords, fun w hw => ?unclassifiedWords⟩
  case undefined => exact decodeOne_of_undefined (classify_of_undefined_class hclass h4) pc
  case unclassified =>
    obtain ⟨-, -, -, -, hunclassified⟩ := classify_iff w
    exact decodeOne_of_unclassified (hunclassified.mpr hnone) pc
  case undefinedWords | unclassifiedWords => fin_cases hw <;> rfl

end Sys2Proof.Machine
end

section
/-! PROOFS. O40, O41, O46. What a step does at a fetchable position, and with it the whole of R242. -/

namespace Sys2Proof.Machine

/-- Under the driver's preconditions the fetch reads the word at the position. -/
theorem fetch_of_fetchable {s : State} (h : Fetchable s) : fetch s = .ok (Memory.readWord s.image s.pc.toNat) := by
  obtain ⟨hmode, haligned, hroom⟩ := h
  exact fetch_eq_ok_iff.mpr ⟨hmode, haligned, hroom, rfl⟩

/-- Under the driver's preconditions a step emits the block's output on the word at the position, and moves as that
output answers. -/
theorem step_of_fetchable {s : State} (h : Fetchable s) :
    step s = .next ((s.emit (outputAt s.image s.pc)).setPc (nextPosition s.pc (outputAt s.image s.pc).newPc)) :=
  (step_of_fetch (fetch_of_fetchable h)).trans (exec_decodeWord _ s)

/-- The driver's sum is the unbounded one, taken modulo 2^32 (92_eei_decisions.md D13). -/
theorem ofNat_toNat_add_four (pc : Word) : BitVec.ofNat 32 (pc.toNat + 4) = pc + 4#32 := by
  rw [BitVec.ofNat_add, BitVec.ofNat_toNat, BitVec.setWidth_eq]

/-- Settles O41: each refusal is the fetch's, and past all three tests the position is fetchable. -/
theorem stepIsOneCallOfTheBlock : Obligations.StepIsOneCallOfTheBlock := by
  intro s
  split
  next hthumb => exact step_eq_refused_iff.mpr (fetch_eq_thumb hthumb)
  next hthumb =>
    have hmode : s.inThumbMode = false := Bool.eq_false_of_not_eq_true hthumb
    split
    next halign => exact step_eq_refused_iff.mpr (fetch_eq_misaligned hmode halign)
    next halign =>
      have haligned : s.pc.toNat % 4 = 0 := not_not.mp halign
      split
      next hbounds => exact step_eq_refused_iff.mpr (fetch_eq_outOfBounds hmode haligned hbounds)
      next hbounds =>
        rw [ofNat_toNat_add_four]
        exact step_of_fetchable ⟨hmode, haligned, not_lt.mp hbounds⟩

/-- Settles O40: the bytes at the position decode to the instruction of the word that the fetch reads there. -/
theorem stepRunsTheInstructionAtThePosition : Obligations.StepRunsTheInstructionAtThePosition := by
  intro s i hfetchable hdecode _
  obtain ⟨rfl, -⟩ := Prod.mk.inj (Except.ok.inj ((decodeBytes_fetchBytes s).symm.trans hdecode))
  exact step_of_fetch (fetch_of_fetchable hfetchable)

/-- Settles O46: the start of a walk is in ARM mode, so it is fetchable where it is aligned and the image reaches. -/
theorem walkInvariantHoldsAtEveryAlignedStart : Obligations.WalkInvariantHoldsAtEveryAlignedStart :=
  fun bytes _ haligned =>
    ⟨walkInv_bootState bytes haligned, fun hroom => ⟨_, step_of_fetchable ⟨rfl, haligned, hroom⟩⟩⟩

end Sys2Proof.Machine
end

section
/-! PROOFS. O48, O50. Walks step by step: how one goes on, and what the step at its end did. -/

namespace Sys2Proof.Machine

theorem walk_succ_of_next {s u : State} (h : step s = .next u) (fuel : Nat) : walk (fuel + 1) s = walk fuel u := by
  simp [walk, h]

theorem walk_succ_of_refused {s : State} {r : Refusal} (h : step s = .refused r) (fuel : Nat) :
    walk (fuel + 1) s = .refused r s := by
  simp [walk, h]

theorem emitted_length_of_step {s u : State} (h : step s = .next u) : u.emitted.length = s.emitted.length + 1 := by
  obtain rfl := eq_of_step_eq_next h
  simp

/-- Settles O48, by induction on the fuel: where the invariant holds, a step goes on to a state that meets it again, or
the position's four bytes pass the end of the image. -/
theorem alignedWalkEndsByFuelOrAtTheImageEnd : Obligations.AlignedWalkEndsByFuelOrAtTheImageEnd := by
  intro fuel
  induction fuel with
  | zero => exact fun s hinv => .inl ⟨s, rfl, hinv, rfl⟩
  | succ fuel ih =>
    intro s hinv
    by_cases hroom : s.pc.toNat + 4 ≤ s.imageLen
    · have hstep := step_of_fetchable ⟨hinv.armMode, hinv.aligned, hroom⟩
      have hlength := emitted_length_of_step hstep
      rw [walk_succ_of_next hstep]
      rcases ih _ (everyStepKeepsTheWalkInvariant _ _ hinv hstep) with
        ⟨t, hwalk, ht, hcount⟩ | ⟨t, hwalk, ht, hend, hcount⟩
      · exact .inl ⟨t, hwalk, ht, by omega⟩
      · exact .inr ⟨t, hwalk, ht, hend, by omega⟩
    · have hend : s.imageLen < s.pc.toNat + 4 := not_le.mp hroom
      have hstep := step_eq_refused_iff.mpr (fetch_eq_outOfBounds hinv.armMode hinv.aligned hend)
      exact .inr ⟨s, walk_succ_of_refused hstep fuel, hinv, hend, by omega⟩

/-- A walk that has not spent its fuel ended in a state whose step stops with the walk's reason. -/
def WalkEnd.StopsAsStep : WalkEnd → Prop
  | .fuelSpent _ => True
  | .refused r t => step t = .refused r
  | .faulted f t => step t = .fault f

theorem walk_stopsAsStep (fuel : Nat) (s : State) : (walk fuel s).StopsAsStep := by
  induction fuel generalizing s with
  | zero => trivial
  | succ fuel ih =>
    unfold walk
    split
    next u _ => exact ih u
    next hstep => exact hstep
    next hstep => exact hstep

/-- The end of a walk, read off as its frame and its reason. -/
theorem frame_and_stop_of_walk {fuel : Nat} {s : State} {e : WalkEnd} (h : walk fuel s = e) :
    WalkFrame s e.state ∧ e.StopsAsStep :=
  h ▸ ⟨walk_frame fuel s, walk_stopsAsStep fuel s⟩

theorem walk_ne_faulted (fuel : Nat) (s : State) (f : Fault) (t : State) : walk fuel s ≠ .faulted f t := by
  intro h
  obtain ⟨-, hstep⟩ := frame_and_stop_of_walk h
  exact step_ne_fault t f hstep

/-- One step more than a walk that spent its fuel is one step from its end. -/
theorem walk_succ_of_fuelSpent {fuel : Nat} {s t : State} (h : walk fuel s = .fuelSpent t) :
    walk (fuel + 1) s = walk 1 t := by
  simp [walk_add, h]

/-- More fuel changes nothing for a walk that was refused. -/
theorem walk_add_of_refused {fuel : Nat} {s t : State} {r : Refusal} (h : walk fuel s = .refused r t) (more : Nat) :
    walk (fuel + more) s = .refused r t := by
  simp [walk_add, h]

/-- Settles O50: the step more is R242 at the state reached, which still has the start's image and mode; a refused walk
ended where the step is refused, and no step faults. -/
theorem oneMoreStepOfAWalkEmitsAndMovesAsTheBlockAnswers :
    Obligations.OneMoreStepOfAWalkEmitsAndMovesAsTheBlockAnswers := by
  refine fun n s => ⟨fun t h => ?oneMore, fun r t h => ⟨walk_add_of_refused h, ?reason⟩, walk_ne_faulted n s⟩
  case oneMore =>
    have hframe : WalkFrame s t := (frame_and_stop_of_walk h).left
    obtain ⟨himage, hlen, hmode, -⟩ := hframe
    rw [walk_succ_of_fuelSpent h, ← himage, ← hlen, ← hmode, walk, stepIsOneCallOfTheBlock t]
    split_ifs <;> rfl
  case reason =>
    have ⟨hframe, hstep⟩ : WalkFrame s t ∧ step t = .refused r := frame_and_stop_of_walk h
    obtain ⟨-, hlen, hmode, -⟩ := hframe
    rw [← hlen, ← hmode]
    rcases fetch_eq_error_iff.mp (step_eq_refused_iff.mp hstep) with
      ⟨hr, hthumb⟩ | ⟨hr, -, halign⟩ | ⟨hr, -, haligned, hend⟩
    · exact .inl ⟨hr, hthumb⟩
    · exact .inr (.inl ⟨hr, halign⟩)
    · exact .inr (.inr ⟨hr, haligned, hend⟩)

end Sys2Proof.Machine
end

section
/-! PROOFS. O3. The test vectors, read through the encoder. -/

namespace Sys2Proof.Machine

/-- To decode a word it is enough to spell it: a well-formed instruction whose word it is, is the one it decodes to. -/
theorem decodeWord_eq_of_encode_eq {w : Word} {i : Instr} (hwf : i.wf = true) (hword : encode i = w) :
    decodeWord w = i :=
  hword ▸ decode_encode hwf

/-- Settles O3: each instruction is well formed, and its fields, put in the places of its format (R62–R67), spell the
vector; an UNCLASSIFIED instruction carries the vector itself. -/
theorem specWordsDecodeToTheirInstructions : Obligations.SpecWordsDecodeToTheirInstructions := by
  unfold Obligations.SpecWordsDecodeToTheirInstructions
  and_intros
  all_goals exact decodeWord_eq_of_encode_eq (by decide) (by decide)

end Sys2Proof.Machine
end
